-- ==== Sys2Proof/Config.lean ====
section
/-!
DEFINITION. What is fixed for one machine and is no state: the open parameter NOISE_SEED and the operands of the
RESET that `State.reset` stands after.
The parameters whose value this spec gives and a test could show wrong (PRESCALER, US_PER_SECOND, ENV_TABLE) are in
`Sys2Proof/Machine/Parameters.lean`; the widths of 00_scope.md rule R9 are the types of `Sys2Proof/Word.lean`.
-/

namespace Sys2Proof

/-- Which nonzero 17-bit value the OPEN parameter `NOISE_SEED` is (00_scope.md rule R9, 41_tone_noise.md rule R109,
93_implementation_defined.md): the seed is this index plus 1, so every nonzero value is possible and 0 is not.
It has no body: nothing can be proved of which one it is. Assumption log 8. -/
opaque Config.noiseSeedIndex : Fin 131071

/-- The `clockHz` of the RESET that `State.reset` stands after. DESIGN CHOICE (assumption log 1): the start of the
spec's own property and vectors, "After `reset(clockHz=2000000, first=0)`" (70_reset_and_hazards.md rule R194,
95_test_vectors.md). -/
def Config.resetClockHz : Nat := 2000000

/-- The `first` of the RESET that `State.reset` stands after. DESIGN CHOICE (assumption log 1). -/
def Config.resetFirstChannel : Nat := 0

end Sys2Proof
end

