-- ==== Sys2Proof/Word.lean ====
section
/-!
DEFINITION. The words of the block, each of the width 00_scope.md rule R9 gives it.
Bit 0 is the least significant bit (rule R12); every word is an unsigned natural number (rule R11).
-/

namespace Sys2Proof

/-- One register's contents, and an 8-bit operand (`REG_WIDTH` = 8). -/
abbrev Byte := BitVec 8

/-- A register index, and the register-select latch (`LATCH_WIDTH` = 4; `NREG` = 16 registers). -/
abbrev RegIndex := BitVec 4

/-- A set of logical channels 0 to 5 as the bitmap of 00_scope.md rule R16: bit k is membership of channel k. -/
abbrev ChannelSet := BitVec 6

/-- The envelope phase, 0 to 31 (`ENV_PHASES` = 32). -/
abbrev Phase := BitVec 5

/-- An amplitude level, 0 to 15 (`ENV_LEVELS` = 16). -/
abbrev Level := BitVec 4

/-- The envelope shape R13[3:0]. -/
abbrev Shape := BitVec 4

/-- A transaction word (30_encoding.md rule R62). -/
abbrev Transaction := BitVec 64

/-- A state of the auxiliary noise bit generator (41_tone_noise.md rule R109). -/
abbrev NoiseState := BitVec 17

end Sys2Proof
end

