-- ==== Sys2Proof/Syntax.lean ====
section
/-!
DEFINITION. The operations: one constructor of `Instr` per row of spec/opcode_table.json, and the assembler's
pseudo-operations.
-/

namespace Sys2Proof

/-- The nine host-facing operations of 30_encoding.md rule R60, in the abstract form of rule R61: `v` and `r` are the
whole byte the host passes, `us`, `clockHz` and `first` are unbounded natural numbers. -/
inductive Instr where
  /-- `writeControlPort(v)`, rule R80. -/
  | wrctrl (v : Byte)
  /-- `writeDataPort(v)`, rule R81. -/
  | wrdata (v : Byte)
  /-- `readDataPort() → value`, rule R85. -/
  | rddata
  /-- `writeDirect(r, v)`, rule R84. -/
  | wrdirect (r v : Byte)
  /-- `setSyncMode(Async)`, rule R153. -/
  | setsyncAsync
  /-- `setSyncMode(Sync)`, rule R154. -/
  | setsyncSync
  /-- `setSyncMode(FlushOnly)`, rule R155. -/
  | setsyncFlush
  /-- `advanceTime(us)`, rule R128. -/
  | advance (us : Nat)
  /-- `reset(clockHz, first)`, rule R190. -/
  | reset (clockHz first : Nat)
  deriving DecidableEq, Repr

/-- The mnemonic of rule R60, as spec/opcode_table.json spells it. -/
def Instr.mnemonic : Instr → String
  | .wrctrl _ => "WRCTRL"
  | .wrdata _ => "WRDATA"
  | .rddata => "RDDATA"
  | .wrdirect _ _ => "WRDIRECT"
  | .setsyncAsync => "SETSYNC.ASYNC"
  | .setsyncSync => "SETSYNC.SYNC"
  | .setsyncFlush => "SETSYNC.FLUSH"
  | .advance _ => "ADVANCE"
  | .reset _ _ => "RESET"

/-- The pseudo-operations of 30_encoding.md rule R69. `wrreg` takes any byte as its register because the rule says
what happens above 15 (the assembler refuses it); `rdreg` is given for 0 to 15 only. -/
inductive PseudoOp where
  | wrreg (r v : Byte)
  | rdreg (r : RegIndex)
  | flush
  deriving DecidableEq, Repr

/-- Why the assembler refuses a line (30_encoding.md rules R68 and R69). No step of the machine raises these. -/
inductive AsmError where
  /-- `wrreg` with a register above 15 (rule R69; the fourth refusal of 60_exceptions.md rule R183). Safe. -/
  | wrregAbove15
  /-- An operand outside the range rule R68 gives it. Safe. -/
  | operandRange
  /-- The line is not of the form of rule R68. Safe. -/
  | badLine
  deriving DecidableEq, Repr

end Sys2Proof
end

