-- ==== Sys2Proof/WellFormed.lean ====
section
/-!
DEFINITION. Which operations have a transaction word: 30_encoding.md rule R63 limits `us` to 32 bits, `clockHz` to
32 bits and `first` to 29 bits in the encoded form. `v` and `r` are bytes by their type.
An operation that is not well-formed is still a legal call of the abstract form (rule R61) and is executed.
-/

namespace Sys2Proof

/-- The operand limits of the encoded form (rule R63). -/
def Instr.wellFormed : Instr → Bool
  | .wrctrl _ => true
  | .wrdata _ => true
  | .rddata => true
  | .wrdirect _ _ => true
  | .setsyncAsync => true
  | .setsyncSync => true
  | .setsyncFlush => true
  | .advance us => us < 2 ^ 32
  | .reset clockHz first => clockHz < 2 ^ 32 && first < 2 ^ 29

end Sys2Proof
end

