-- ==== Sys2Proof/Decode.lean ====
section
/-!
DEFINITION. The transaction word of 30_encoding.md rule R62: the decoder, total on every 64-bit word and refusing by
name the words that spell no operation (rule R66); the encoder; and the opcode table's rows.
A transaction is ONE 64-bit word (rule R64), so there is no byte order and no operand word after it.
-/

namespace Sys2Proof

/-- Why a word spells no operation (30_encoding.md rule R66). -/
inductive DecodeError where
  /-- `op` = 7. -/
  | reservedOp
  /-- A SETSYNC word with `mode` = 3. -/
  | reservedMode
  /-- A nonzero bit in a position rule R62 says must be zero. -/
  | mustBeZero
  deriving DecidableEq, Repr

/-- The operation code `T[63:61]` (rule R62). -/
def opField (t : Transaction) : Nat := (t.extractLsb' 61 3).toNat

/-- `T[7:0]` of formats P and D. -/
def vField (t : Transaction) : Byte := t.extractLsb' 0 8

/-- `T[15:8]` of format D. -/
def rField (t : Transaction) : Byte := t.extractLsb' 8 8

/-- `T[1:0]` of format M. -/
def modeField (t : Transaction) : Nat := (t.extractLsb' 0 2).toNat

/-- `T[31:0]` of formats U (`us`) and K (`clockHz`), zero-extended (rule R63). -/
def lowField (t : Transaction) : Nat := (t.extractLsb' 0 32).toNat

/-- `T[60:32]` of format K (`first`), zero-extended (rule R63). -/
def firstField (t : Transaction) : Nat := (t.extractLsb' 32 29).toNat

/-- Bits 60 down to `lo` of `t` are all zero: the must-be-zero bits of the formats whose fields end below `lo`. -/
def zeroFrom (lo : Nat) (t : Transaction) : Bool := t.extractLsb' lo (61 - lo) == 0

/-- `i`, if the format's must-be-zero bits hold zero. -/
def requireZeroFrom (lo : Nat) (t : Transaction) (i : Instr) : Except DecodeError Instr :=
  if zeroFrom lo t then .ok i else .error .mustBeZero

/-- A SETSYNC word, once its must-be-zero bits hold zero (which fault of a word is named first: DESIGN CHOICE,
assumption log 10): the mode field selects the operation (rule R65). -/
def decodeMode (t : Transaction) : Except DecodeError Instr :=
  match modeField t with
  | 0 => .ok .setsyncAsync
  | 1 => .ok .setsyncSync
  | 2 => .ok .setsyncFlush
  | _ => .error .reservedMode

/-- The decoder (rules R62 to R66): the format is selected by `T[63:61]` alone (rule R64). -/
def decode (t : Transaction) : Except DecodeError Instr :=
  match opField t with
  | 0 => requireZeroFrom 8 t (.wrctrl (vField t))
  | 1 => requireZeroFrom 8 t (.wrdata (vField t))
  | 2 => requireZeroFrom 0 t .rddata
  | 3 => requireZeroFrom 16 t (.wrdirect (rField t) (vField t))
  | 4 => if zeroFrom 2 t then decodeMode t else .error .mustBeZero
  | 5 => requireZeroFrom 32 t (.advance (lowField t))
  | 6 => .ok (.reset (lowField t) (firstField t))
  | _ => .error .reservedOp

/-- The bit strings of rule R62, most significant part first. An operand above its limit (rule R63) loses its high
bits: `encode` means something of well-formed operations only. -/
def encode : Instr → Transaction
  | .wrctrl v => 0#3 ++ 0#53 ++ v
  | .wrdata v => 1#3 ++ 0#53 ++ v
  | .rddata => 2#3 ++ 0#61
  | .wrdirect r v => 3#3 ++ 0#45 ++ r ++ v
  | .setsyncAsync => 4#3 ++ 0#59 ++ 0#2
  | .setsyncSync => 4#3 ++ 0#59 ++ 1#2
  | .setsyncFlush => 4#3 ++ 0#59 ++ 2#2
  | .advance us => 5#3 ++ 0#29 ++ BitVec.ofNat 32 us
  | .reset clockHz first => 6#3 ++ BitVec.ofNat 29 first ++ BitVec.ofNat 32 clockHz

/-- One row of spec/opcode_table.json. -/
structure OpcodeRow where
  mnemonic : String
  pattern : Transaction
  mask : Transaction
  deriving DecidableEq, Repr

/-- Whether the word is one of the row's. -/
def OpcodeRow.covers (row : OpcodeRow) (t : Transaction) : Bool := t &&& row.mask == row.pattern

/-- The rows of spec/opcode_table.json, with their match and mask. -/
def opcodeTable : List OpcodeRow :=
  [ ⟨"WRCTRL", 0x0000000000000000#64, 0xFFFFFFFFFFFFFF00#64⟩,
    ⟨"WRDATA", 0x2000000000000000#64, 0xFFFFFFFFFFFFFF00#64⟩,
    ⟨"RDDATA", 0x4000000000000000#64, 0xFFFFFFFFFFFFFFFF#64⟩,
    ⟨"WRDIRECT", 0x6000000000000000#64, 0xFFFFFFFFFFFF0000#64⟩,
    ⟨"SETSYNC.ASYNC", 0x8000000000000000#64, 0xFFFFFFFFFFFFFFFF#64⟩,
    ⟨"SETSYNC.SYNC", 0x8000000000000001#64, 0xFFFFFFFFFFFFFFFF#64⟩,
    ⟨"SETSYNC.FLUSH", 0x8000000000000002#64, 0xFFFFFFFFFFFFFFFF#64⟩,
    ⟨"ADVANCE", 0xA000000000000000#64, 0xFFFFFFFF00000000#64⟩,
    ⟨"RESET", 0xC000000000000000#64, 0xE000000000000000#64⟩ ]

/-- The transaction whose bits are the low `nbits` bits of `w`, every higher bit 0. The transaction word is the unit
the host issues, so its bits are numbered as the opcode table numbers them. -/
def tableWord (nbits w : Nat) : Transaction := BitVec.ofNat 64 (w % 2 ^ nbits)

/-- The operation the decoder reads from an opcode-table word, none where it refuses. -/
def decodeTableWord (nbits w : Nat) : Option Instr := (decode (tableWord nbits w)).toOption

end Sys2Proof
end

