-- ==== Sys2Proof/Machine/Parameters.lean ====
section
/-!
DEFINITION. The implementation parameters of 00_scope.md rule R9 that have a value a corrected spec could change
without changing a rule: PRESCALER, US_PER_SECOND, ENV_TABLE; and the conversion built on them, which `State.reset`
needs. They hold the spec's values (DESIGN CHOICE, assumption log 13).
-/

namespace Sys2Proof.Machine

/-- `PRESCALER` (rule R9, decision D5). -/
def prescaler : Nat := 16

/-- `US_PER_SECOND` (rule R9). -/
def usPerSecond : Nat := 1000000

/-- `clockBase` as RESET computes it from the chip input clock (10_state.md rule R34). -/
def clockBaseOf (clockHz : Nat) : Nat := clockHz / prescaler

/-- `envPeriodOf(EP, clockBase)` in microseconds per envelope step (42_envelope.md rule R121): a period value of 0
counts as 1, a stopped clock gives 0, and a running one gives at least 1. -/
def envPeriodOf (ep clockBase : Nat) : Nat :=
  if clockBase = 0 then 0 else max 1 (usPerSecond * (if ep = 0 then 1 else ep) / clockBase)

/-- CONT = R13[3] (10_state.md rule R29). -/
def contBit (shape : Shape) : Bool := shape.getLsbD 3

/-- ATT = R13[2]. -/
def attBit (shape : Shape) : Bool := shape.getLsbD 2

/-- ALT = R13[1]. -/
def altBit (shape : Shape) : Bool := shape.getLsbD 1

/-- HOLD = R13[0]. -/
def holdBit (shape : Shape) : Bool := shape.getLsbD 0

/-- `ENV_TABLE[shape][p]` (42_envelope.md rule R124, decision D12), by the rule's formula. -/
def envTable (shape : Shape) (p : Phase) : Level :=
  let s : Level := p.setWidth 4
  if p.toNat < 16 then (if attBit shape then s else 15 - s)
  else if contBit shape = false then 0
  else if holdBit shape then (if (attBit shape ^^ altBit shape) then 15 else 0)
  else (if (attBit shape ^^ altBit shape) then s else 15 - s)

end Sys2Proof.Machine
end

