-- ==== Sys2Proof/Machine/State.lean ====
section
/-!
DEFINITION. The state as plain data: the chip's own state `ChipState` (10_state.md rule R20), and around it what the
host and the mixer see of one chip: the pending operations, the values returned, the notification trace, whether
RESET has been issued, whether a notification is in progress.
-/

namespace Sys2Proof.Machine

/-- `syncMode` (10_state.md rule R32). FlushOnly is an operand value, never a stored one. -/
inductive SyncMode where
  | async
  | sync
  deriving DecidableEq, Repr

/-- One record `notify(channelIndex, frequency, volume, enabled)` (43_sync_controller.md rules R150 and R151). -/
structure Notification where
  channel : Nat
  frequency : Nat
  volume : Level
  enabled : Bool
  deriving DecidableEq, Repr

/-- The state of the chip: exactly the fields of 10_state.md rule R20, in the save-state order of rule R38. -/
structure ChipState where
  /-- R0 to R15; 10_state.md rule R22. -/
  registers : Vector Byte 16
  /-- The register-select latch; rule R31. -/
  latch : RegIndex
  /-- The notification policy; rule R32. -/
  syncMode : SyncMode
  /-- The chip clock divided by the prescaler, in Hz; rule R34. -/
  clockBase : Nat
  /-- The offset of this chip's logical channels in the mixer's channel space; rule R35. -/
  firstChannel : Nat
  /-- The logical channels pending notification; rule R33. -/
  changedMask : ChannelSet
  /-- The envelope timer period in microseconds; rule R37. -/
  envelopePeriod : Nat
  /-- Microseconds accumulated toward the next envelope step; rule R37. -/
  envelopeCounter : Nat
  /-- The position in the active shape's 32-step cycle; rule R37. -/
  envelopePhase : Phase
  deriving DecidableEq, Repr

/-- One call of the host: a transaction word (30_encoding.md rule R62), or the same term in the abstract form, whose
natural operands are unbounded (rules R61 and R63; DEDUCED, assumption log 12). -/
inductive HostCall where
  | word (t : Transaction)
  | call (i : Instr)
  deriving DecidableEq, Repr

/-- The whole state of a step. The five fields beside `chip` are the model's own, not fields of the chip (assumption
logs 4 and 5). -/
structure State where
  /-- The chip's own state. -/
  chip : ChipState
  /-- Whether a RESET has been issued. Before the first one the chip's state is undefined and nothing but RESET is
  admitted (70_reset_and_hazards.md rule R192). -/
  resetDone : Bool
  /-- Whether one of this chip's notifications is in progress (60_exceptions.md rules R175 and R176;
  DEDUCED, assumption log 5). -/
  notifying : Bool
  /-- The operations the host has still to issue, the next one first (10_state.md rule R36). -/
  stream : List HostCall
  /-- The values RDDATA has returned, oldest first (00_scope.md rule R18 (a)). -/
  returned : List Byte
  /-- The notifications emitted, oldest first (00_scope.md rule R18 (b)). -/
  trace : List Notification
  deriving DecidableEq, Repr

/-- Nothing faults: "the chip, like real hardware, has no error states" (60_exceptions.md rules R170 and R183), so there
is no fault reason. -/
inductive Fault where
  deriving DecidableEq, Repr

/-- The refusals of 60_exceptions.md rule R183 that an operation or a word can meet (its fourth, of the assembler, is
`AsmError.wrregAbove15`). -/
inductive Refusal where
  /-- An operation the model has not reached, by its mnemonic. No arm raises it: every operation has its meaning. Safe. -/
  | notModelled (mnemonic : String)
  /-- Raised by every operation other than RESET before the first RESET (70_reset_and_hazards.md rule R192). Safe. -/
  | beforeReset
  /-- Raised by every operation issued while one of the chip's own notifications is in progress
  (60_exceptions.md rule R176). Safe. -/
  | insideNotification
  /-- Raised by the step on a word that spells no operation (30_encoding.md rule R66). Safe. -/
  | undecodable (e : DecodeError)
  deriving DecidableEq, Repr

/-- The machine right after RESET (10_state.md rule R39): every register and the latch 0, Async, nothing pending, the
envelope timer at its start; nothing issued, returned or notified.
The RESET it stands after is RESET 2000000, 0 (DESIGN CHOICE, assumption log 1). -/
def State.reset : State where
  chip :=
    { registers := Vector.replicate 16 0
      latch := 0
      syncMode := .async
      clockBase := clockBaseOf Config.resetClockHz
      firstChannel := Config.resetFirstChannel
      changedMask := 0
      envelopePeriod := envPeriodOf 0 (clockBaseOf Config.resetClockHz)
      envelopeCounter := 0
      envelopePhase := 0 }
  resetDone := true
  notifying := false
  stream := []
  returned := []
  trace := []

end Sys2Proof.Machine
end

