-- ==== Sys2Proof/Machine/Ops.lean ====
section
/-!
DEFINITION. The named operations over the state that the meanings share: the register bank, the latch, the mode, the
mask and the envelope timer; availability of an operation; entering a notification and returning from it.
The block raises no exception and takes none (60_exceptions.md rules R170 and R175): the mixer callback is the one
entry and return there is.
-/

namespace Sys2Proof.Machine

/-! ### The register bank -/

/-- `R[i]`, which is also `MemRead(i, 1)` (00_scope.md rule R14): the register space is the block's only space, and
all 16 indices hold storage (20_memory.md rules R40 and R48; DEDUCED, assumption log 6). -/
def ChipState.reg (c : ChipState) (i : RegIndex) : Byte := c.registers[i.toNat]'i.isLt

/-- `R[i] <- v`, which is also `MemWrite(i, 1, v)`: the whole byte is stored (10_state.md rule R22). -/
def ChipState.setReg (c : ChipState) (i : RegIndex) (v : Byte) : ChipState :=
  { c with registers := c.registers.set i.toNat v i.isLt }

/-! ### The fields outside the register bank -/

/-- `latch <- i`. -/
def ChipState.setLatch (c : ChipState) (i : RegIndex) : ChipState := { c with latch := i }

/-- `syncMode <- mode`. -/
def ChipState.setMode (c : ChipState) (mode : SyncMode) : ChipState := { c with syncMode := mode }

/-- `changedMask <- changedMask ∪ set`. -/
def ChipState.mark (c : ChipState) (set : ChannelSet) : ChipState := { c with changedMask := c.changedMask ||| set }

/-- `changedMask <- ∅`. -/
def ChipState.clearMask (c : ChipState) : ChipState := { c with changedMask := 0 }

/-- `envelopePeriod <- period`; the counter and the phase stay (42_envelope.md rule R122). -/
def ChipState.setPeriod (c : ChipState) (period : Nat) : ChipState := { c with envelopePeriod := period }

/-- `envelopeCounter <- counter; envelopePhase <- phase`. -/
def ChipState.setTimer (c : ChipState) (counter : Nat) (phase : Phase) : ChipState :=
  { c with envelopeCounter := counter, envelopePhase := phase }

/-! ### The chip within the state, and the host's side of it -/

/-- The state with another chip state. -/
def State.withChip (s : State) (c : ChipState) : State := { s with chip := c }

/-- The state with other pending operations. -/
def State.withStream (s : State) (calls : List HostCall) : State := { s with stream := calls }

/-- `ret v` (00_scope.md rule R15): the value goes to the host. -/
def State.ret (s : State) (v : Byte) : State := { s with returned := s.returned ++ [v] }

/-! ### Notifications: entry and return -/

/-- The mixer is called with `record`: the record joins the trace (00_scope.md rule R15), and the notification is in
progress (60_exceptions.md rule R175). The chip's state is untouched. -/
def State.enterNotification (s : State) (record : Notification) : State :=
  { s with trace := s.trace ++ [record], notifying := true }

/-- The callback returns to the flush; nothing is restored (60_exceptions.md rule R176). -/
def State.leaveNotification (s : State) : State := { s with notifying := false }

/-! ### Admitting an operation -/

/-- An operation that may be issued at any time but from inside a notification (70_reset_and_hazards.md rule R193,
60_exceptions.md rule R176). -/
def State.whenIdle (s : State) (run : State → Host.Outcome State Fault Refusal) : Host.Outcome State Fault Refusal :=
  if s.notifying then .refused .insideNotification else run s

/-- An operation other than RESET is, besides, refused before the first RESET (70_reset_and_hazards.md rule R192). -/
def State.whenReady (s : State) (run : State → Host.Outcome State Fault Refusal) : Host.Outcome State Fault Refusal :=
  s.whenIdle fun s => if s.resetDone then run s else .refused .beforeReset

end Sys2Proof.Machine
end

