-- ==== Sys2Proof/Machine/Operands.lean ====
section
/-!
DEFINITION. The operand forms: how an operation narrows its operand (30_encoding.md rule R63), and the fields of the
registers that the derivations read (10_state.md rules R24 to R29).
-/

namespace Sys2Proof.Machine

/-! ### Operands of the operations -/

/-- `v[3:0]`: WRCTRL keeps the low 4 bits (40_port_protocol.md rule R80). -/
def narrowToLatch (v : Byte) : RegIndex := v.setWidth 4

/-- `r` ≤ 15: the register index WRDIRECT accepts (40_port_protocol.md rule R84). -/
def directAccepted (r : Byte) : Bool := r.toNat ≤ 15

/-! ### Register indices of the register map (10_state.md rule R23) -/

/-- R[2n], the fine register of tone channel n. -/
def fineIndex (n : Fin 3) : RegIndex := BitVec.ofNat 4 (2 * n.val)

/-- R[2n+1], the coarse register of tone channel n. -/
def coarseIndex (n : Fin 3) : RegIndex := BitVec.ofNat 4 (2 * n.val + 1)

/-- R[8+n], the volume register of channel n. -/
def volumeIndex (n : Fin 3) : RegIndex := BitVec.ofNat 4 (8 + n.val)

/-! ### Register fields -/

/-- `TP(n) = R[2n+1][3:0] ++ R[2n][7:0]` (rule R24). -/
def ChipState.tonePeriod (c : ChipState) (n : Fin 3) : BitVec 12 :=
  (c.reg (coarseIndex n)).setWidth 4 ++ c.reg (fineIndex n)

/-- `NP = R6[4:0]` (rule R25). -/
def ChipState.noisePeriod (c : ChipState) : BitVec 5 := (c.reg 6).setWidth 5

/-- `enabled(k) = (R7[k] == 0)` (rule R26; 41_tone_noise.md rules R103 and R107). -/
def ChipState.enabled (c : ChipState) (k : Fin 6) : Bool := !(c.reg 7).getLsbD k.val

/-- `R[8+n][3:0]`, the fixed level of channel n (rule R27). -/
def ChipState.fixedLevel (c : ChipState) (n : Fin 3) : Level := (c.reg (volumeIndex n)).setWidth 4

/-- `M = R[8+n][4]`: channel n takes its volume from the envelope (rule R27). -/
def ChipState.usesEnvelope (c : ChipState) (n : Fin 3) : Bool := (c.reg (volumeIndex n)).getLsbD 4

/-- `EP = R12 ++ R11` (rule R28). -/
def ChipState.envPeriodField (c : ChipState) : BitVec 16 := c.reg 12 ++ c.reg 11

/-- `shape = R13[3:0]` (rule R29). -/
def ChipState.shape (c : ChipState) : Shape := (c.reg 13).setWidth 4

end Sys2Proof.Machine
end

