-- ==== Sys2Proof/Machine/Flags.lean ====
section
/-!
DEFINITION. The block has no condition flags; what an operation sets in their place is the set of changed channels
(the head of 40_port_protocol.md). This file says which channels a change marks.
-/

namespace Sys2Proof.Machine

/-- Logical channels n and n+3: tone n, and noise as heard on channel n (10_state.md rule R33). -/
def voicesOf (n : Fin 3) : ChannelSet := 0b001001#6 <<< n.val

/-- `{n, n+3}` if channel n is in envelope mode, else `∅`. -/
def ChipState.envelopeVoices (c : ChipState) (n : Fin 3) : ChannelSet :=
  if c.usesEnvelope n then voicesOf n else 0

/-- `{n, n+3 : n in {0,1,2} and R[8+n][4] = 1}` (40_port_protocol.md rule R83, 42_envelope.md rule R128). -/
def ChipState.envelopeChannels (c : ChipState) : ChannelSet :=
  c.envelopeVoices 0 ||| c.envelopeVoices 1 ||| c.envelopeVoices 2

/-- The channel map `dirty(i)` (40_port_protocol.md rule R83), which does not look at the byte written. -/
def ChipState.dirty (c : ChipState) (i : RegIndex) : ChannelSet :=
  match i.toNat with
  | 0 | 1 => 0b000001
  | 2 | 3 => 0b000010
  | 4 | 5 => 0b000100
  | 6 => 0b111000
  | 7 => 0b111111
  | 8 => voicesOf 0
  | 9 => voicesOf 1
  | 10 => voicesOf 2
  | 13 => c.envelopeChannels
  | _ => 0

end Sys2Proof.Machine
end

