-- ==== Sys2Proof/Machine/EnvelopeGenerator.lean ====
section
/-!
DEFINITION. The envelope generator of 42_envelope.md: the levels, the phase step, the catch-up loop of ADVANCE as
rule R128 writes it, and its closed form (rule R131), which the meaning of ADVANCE uses.
-/

namespace Sys2Proof.Machine

/-! ### Levels -/

/-- `envLevel = ENV_TABLE[R13[3:0]][envelopePhase]` (rule R125). -/
def ChipState.envLevel (c : ChipState) : Level := envTable c.shape c.envelopePhase

/-- `level(n)` (rule R125). -/
def ChipState.level (c : ChipState) (n : Fin 3) : Level :=
  if c.usesEnvelope n then c.envLevel else c.fixedLevel n

/-! ### The phase step -/

/-- CONT = 1 and HOLD = 0: the shape repeats; every other shape stops at phase 31 (rule R130). -/
def repeats (shape : Shape) : Bool := contBit shape && !holdBit shape

/-- `nextPhase(shape, p)` (rule R130). -/
def nextPhase (shape : Shape) (p : Phase) : Phase :=
  if p.toNat < 31 then p + 1 else if repeats shape then 0 else 31

/-! ### The catch-up loop -/

/-- The body of the loop of rule R128: one envelope step, and the marks of the envelope-mode channels. -/
def ChipState.envelopeStep (c : ChipState) : ChipState :=
  (c.setTimer (c.envelopeCounter - c.envelopePeriod) (nextPhase c.shape c.envelopePhase)).mark c.envelopeChannels

/-- `while envelopeCounter >= envelopePeriod` (rule R128), for at most `fuel` turns. -/
def ChipState.catchUp : Nat → ChipState → ChipState
  | 0, c => c
  | fuel + 1, c => if c.envelopePeriod ≤ c.envelopeCounter then catchUp fuel c.envelopeStep else c

/-- ADVANCE on the chip as rule R128 writes it, before its flush. A turn takes at least 1 microsecond off the counter,
so the counter is fuel enough. -/
def ChipState.advanceLoop (c : ChipState) (us : Nat) : ChipState :=
  if c.envelopePeriod = 0 then c
  else ChipState.catchUp (c.envelopeCounter + us) (c.setTimer (c.envelopeCounter + us) c.envelopePhase)

/-! ### The closed form -/

/-- How many steps ADVANCE takes: `k = floor((counter + us) / period)` (rule R131). -/
def ChipState.stepsDue (c : ChipState) (us : Nat) : Nat := (c.envelopeCounter + us) / c.envelopePeriod

/-- The phase after `k` steps: `(p + k) mod 32` for repeating shapes and `min(31, p + k)` otherwise (rule R131). -/
def phaseAfter (shape : Shape) (p : Phase) (k : Nat) : Phase :=
  BitVec.ofNat 5 (if repeats shape then (p.toNat + k) % 32 else min 31 (p.toNat + k))

/-- ADVANCE on the chip by the closed form (rules R129 and R131), before its flush (DEDUCED, assumption log 9). -/
def ChipState.advance (c : ChipState) (us : Nat) : ChipState :=
  if c.envelopePeriod = 0 then c
  else
    (c.setTimer ((c.envelopeCounter + us) % c.envelopePeriod)
        (phaseAfter c.shape c.envelopePhase (c.stepsDue us))).mark
      (if c.stepsDue us = 0 then 0 else c.envelopeChannels)

end Sys2Proof.Machine
end

