-- ==== Sys2Proof/Machine/ToneNoise.lean ====
section
/-!
DEFINITION. The tone and noise generators of 41_tone_noise.md: derivers of the frequencies a notification carries.
They hold no state and no operation is theirs. The bit generator of rule R109 is auxiliary: nothing of the machine
uses it (rule R108).
-/

namespace Sys2Proof.Machine

/-- A period of 0 counts as 1 (rule R101 for the tone, rule R105 for the noise). -/
def effectivePeriod (period : Nat) : Nat := if period = 0 then 1 else period

/-- `toneFreq(n)` in Hz (rule R102): the natural-number quotient. -/
def ChipState.toneFreq (c : ChipState) (n : Fin 3) : Nat := c.clockBase / effectivePeriod (c.tonePeriod n).toNat

/-- `noiseFreq` in Hz (rule R106), the same for the three noise channels. -/
def ChipState.noiseFreq (c : ChipState) : Nat := c.clockBase / effectivePeriod c.noisePeriod.toNat

/-! ### The auxiliary noise bit generator (rule R109) -/

/-- The current output bit. -/
def noiseOut (s : NoiseState) : Bool := s.getLsbD 0

/-- One step, `((s[0] ^ s[3]) << 16) | (s >> 1)`. -/
def noiseStep (s : NoiseState) : NoiseState :=
  ((s.extractLsb' 0 1 ^^^ s.extractLsb' 3 1).setWidth 17 <<< 16) ||| (s >>> 1)

/-- The state after `n` steps from `s`. -/
def noiseRun : Nat → NoiseState → NoiseState
  | 0, s => s
  | n + 1, s => noiseRun n (noiseStep s)

/-- `NOISE_SEED`: any nonzero value, which one is open (00_scope.md rule R9). -/
def noiseSeed : NoiseState := BitVec.ofNat 17 (Config.noiseSeedIndex.val + 1)

end Sys2Proof.Machine
end

