-- ==== Sys2Proof/Machine/Notify.lean ====
section
/-!
DEFINITION. The notification record and the flush of 43_sync_controller.md.
-/

namespace Sys2Proof.Machine

/-- The channel a logical channel sounds on: `k mod 3`. -/
def soundsOn (k : Fin 6) : Fin 3 := ⟨k.val % 3, Nat.mod_lt _ (by decide)⟩

/-- The record notified for logical channel k, computed from the state at the flush (rule R151). -/
def ChipState.record (c : ChipState) (k : Fin 6) : Notification where
  channel := c.firstChannel + k.val
  frequency := if k.val < 3 then c.toneFreq (soundsOn k) else c.noiseFreq
  volume := c.level (soundsOn k)
  enabled := c.enabled k

/-- The order in which a flush visits the logical channels: ascending (rule R152, decision D19;
DESIGN CHOICE, assumption log 13). -/
def channelOrder : List (Fin 6) := [0, 1, 2, 3, 4, 5]

/-- `k ∈ changedMask` (00_scope.md rule R16). -/
def ChipState.pending (c : ChipState) (k : Fin 6) : Bool := c.changedMask.getLsbD k.val

/-- The records a flush of `c` emits, in order. -/
def ChipState.pendingRecords (c : ChipState) : List Notification := (channelOrder.filter c.pending).map c.record

/-- One turn of the flush's loop: the mixer is called with channel k's record and returns, if k is pending. -/
def State.deliver (s : State) (k : Fin 6) : State :=
  if s.chip.pending k then (s.enterNotification (s.chip.record k)).leaveNotification else s

/-- The flush (rule R152): the mask is cleared after the last notification (60_exceptions.md rule R175). -/
def State.flush (s : State) : State :=
  let s' := channelOrder.foldl State.deliver s
  s'.withChip s'.chip.clearMask

/-- `if syncMode == Async: flush()`, with which WRDATA, an accepted WRDIRECT and ADVANCE end. -/
def State.flushIfAsync (s : State) : State :=
  match s.chip.syncMode with
  | .async => s.flush
  | .sync => s

/-- The state while a flush of `s` has called the mixer with channel k's record (60_exceptions.md rule R175): the
channels before k have been notified, and every channel notified is still in `changedMask`. -/
def State.atCallback (s : State) (k : Fin 6) : State :=
  ((channelOrder.filter (· < k)).foldl State.deliver s).enterNotification (s.chip.record k)

end Sys2Proof.Machine
end

