-- ==== Sys2Proof/Machine/PortProtocol.lean ====
section
/-!
DEFINITION. The register bank and port protocol of 40_port_protocol.md: WRCTRL, WRDATA, WRDIRECT, RDDATA.
-/

namespace Sys2Proof.Machine

/-- What a write to register i does to the envelope timer (rule R82), after the store: R11 and R12 recompute the
period, R13 restarts the envelope, every other register does nothing. -/
def ChipState.envelopeWriteEffect (c : ChipState) (i : RegIndex) : ChipState :=
  if i = 11 ∨ i = 12 then c.setPeriod (envPeriodOf c.envPeriodField.toNat c.clockBase)
  else if i = 13 then c.setTimer 0 0
  else c

/-- `regWrite(i, v)` (rule R82). -/
def ChipState.regWrite (c : ChipState) (i : RegIndex) (v : Byte) : ChipState :=
  let stored := c.setReg i v
  (stored.mark (stored.dirty i)).envelopeWriteEffect i

/-- WRCTRL (rule R80): the latch only; no flush in either mode. -/
def execWrctrl (v : Byte) (s : State) : Host.Outcome State Fault Refusal :=
  s.whenReady fun s => .next (s.withChip (s.chip.setLatch (narrowToLatch v)))

/-- WRDATA (rule R81). -/
def execWrdata (v : Byte) (s : State) : Host.Outcome State Fault Refusal :=
  s.whenReady fun s => .next (s.withChip (s.chip.regWrite s.chip.latch v)).flushIfAsync

/-- WRDIRECT (rule R84): above 15 a no-op, without a flush. -/
def execWrdirect (r v : Byte) (s : State) : Host.Outcome State Fault Refusal :=
  s.whenReady fun s =>
    if directAccepted r then
      .next (s.withChip ((s.chip.setLatch (narrowToLatch r)).regWrite (narrowToLatch r) v)).flushIfAsync
    else .next s

/-- RDDATA (rule R85): a pure read-back. -/
def execRddata (s : State) : Host.Outcome State Fault Refusal :=
  s.whenReady fun s => .next (s.ret (s.chip.reg s.chip.latch))

end Sys2Proof.Machine
end

