-- ==== Sys2Proof/Machine/ResetOp.lean ====
section
/-!
DEFINITION. RESET of 70_reset_and_hazards.md.
-/

namespace Sys2Proof.Machine

/-- The chip after RESET(clockHz, first): every field of rule R190, whatever the chip held. -/
def chipAfterReset (clockHz first : Nat) : ChipState where
  registers := Vector.replicate 16 0
  latch := 0
  syncMode := .async
  clockBase := clockBaseOf clockHz
  firstChannel := first
  changedMask := 0
  envelopePeriod := envPeriodOf 0 (clockBaseOf clockHz)
  envelopeCounter := 0
  envelopePhase := 0

/-- A chip no RESET has reached yet: its own state is undefined (rule R192), so it is whatever `c` is. -/
def State.beforeFirstReset (c : ChipState) : State where
  chip := c
  resetDone := false
  notifying := false
  stream := []
  returned := []
  trace := []

/-- RESET (rule R190): it notifies nothing (rule R191), and from then on every operation is admitted (rule R192). -/
def execReset (clockHz first : Nat) (s : State) : Host.Outcome State Fault Refusal :=
  s.whenIdle fun s => .next { s with chip := chipAfterReset clockHz first, resetDone := true }

end Sys2Proof.Machine
end

