-- ==== Sys2Proof/Machine/SyncController.lean ====
section
/-!
DEFINITION. `setSyncMode` of 43_sync_controller.md: every SETSYNC flushes; Async and Sync also set the mode
(90_conflicts.md C3).
-/

namespace Sys2Proof.Machine

/-- The mode is set, then every pending channel is notified. -/
def State.setModeAndFlush (s : State) (mode : SyncMode) : State := (s.withChip (s.chip.setMode mode)).flush

/-- SETSYNC.ASYNC (rule R153). -/
def execSetsyncAsync (s : State) : Host.Outcome State Fault Refusal :=
  s.whenReady fun s => .next (s.setModeAndFlush .async)

/-- SETSYNC.SYNC (rule R154). -/
def execSetsyncSync (s : State) : Host.Outcome State Fault Refusal :=
  s.whenReady fun s => .next (s.setModeAndFlush .sync)

/-- SETSYNC.FLUSH (rule R155): the mode stays. -/
def execSetsyncFlush (s : State) : Host.Outcome State Fault Refusal :=
  s.whenReady fun s => .next s.flush

end Sys2Proof.Machine
end

