-- ==== Sys2Proof/Machine/TimeAdvance.lean ====
section
/-!
DEFINITION. `advanceTime` of 42_envelope.md: ADVANCE.
-/

namespace Sys2Proof.Machine

/-- ADVANCE (rule R128): nothing at all while the envelope is stopped (rule R129); else every due step, then one flush
in Async mode. -/
def execAdvance (us : Nat) (s : State) : Host.Outcome State Fault Refusal :=
  s.whenReady fun s =>
    if s.chip.envelopePeriod = 0 then .next s else .next (s.withChip (s.chip.advance us)).flushIfAsync

end Sys2Proof.Machine
end

