-- ==== Sys2Proof/Machine/Dispatch.lean ====
section
/-!
DEFINITION. One arm per operation.
-/

namespace Sys2Proof.Machine

/-- The meaning of one operation: one complete, atomic host-facing operation (00_scope.md rule R8). -/
def exec (i : Instr) (s : State) : Host.Outcome State Fault Refusal :=
  match i with
  | .wrctrl v => Sys2Proof.Machine.execWrctrl v s
  | .wrdata v => Sys2Proof.Machine.execWrdata v s
  | .rddata => Sys2Proof.Machine.execRddata s
  | .wrdirect r v => Sys2Proof.Machine.execWrdirect r v s
  | .setsyncAsync => Sys2Proof.Machine.execSetsyncAsync s
  | .setsyncSync => Sys2Proof.Machine.execSetsyncSync s
  | .setsyncFlush => Sys2Proof.Machine.execSetsyncFlush s
  | .advance us => Sys2Proof.Machine.execAdvance us s
  | .reset clockHz first => Sys2Proof.Machine.execReset clockHz first s

end Sys2Proof.Machine
end

