-- ==== Sys2Proof/Machine/Fetch.lean ====
section
/-!
DEFINITION. Where the next operation comes from: the host's stream (10_state.md rule R36). The block has no program
counter and fetches nothing itself (rule R36, 20_memory.md rule R53).
-/

namespace Sys2Proof.Machine

/-- The operation a host call stands for: a word through the decoder, an abstract call as it is (30_encoding.md rule
R61). -/
def HostCall.operation : HostCall → Except DecodeError Instr
  | .word t => decode t
  | .call i => .ok i

/-- The next operation of the stream, and the state in which it has been taken; none where the host has issued
nothing. -/
def fetch (s : State) : Option (Except DecodeError Instr × State) :=
  match s.stream with
  | [] => none
  | call :: rest => some (call.operation, s.withStream rest)

/-- The state in which the host issues the transaction of an opcode-table word next. -/
def issueTableWord (s : State) (nbits w : Nat) : State := s.withStream (.word (tableWord nbits w) :: s.stream)

end Sys2Proof.Machine
end

