-- ==== Sys2Proof/Machine/Step.lean ====
section
/-!
DEFINITION. The step: one complete operation of the host (00_scope.md rule R8).
-/

namespace Sys2Proof.Machine

/-- The next operation of the stream is executed; a word that spells none is refused (30_encoding.md rule R66); while
the host issues nothing the state is kept unchanged (60_exceptions.md rule R182; DEDUCED, assumption log 3). -/
def step (s : State) : Host.Outcome State Fault Refusal :=
  match fetch s with
  | none => .next s
  | some (.ok i, s') => exec i s'
  | some (.error e, _) => .refused (.undecodable e)

/-- `s` with the transaction of an opcode-table word put before the pending ones, so that the very next step runs it
(assumption log 2: how a program comes to run). -/
def State.withFetchWord (s : State) (nbits w : Nat) : State := issueTableWord s nbits w

end Sys2Proof.Machine
end

