-- ==== Sys2Proof/Machine/Assembler.lean ====
section
/-!
DEFINITION. The textual syntax and the pseudo-operations of 30_encoding.md rules R68 and R69: a line of text to the
operations it spells. What the rule leaves open of the text (white space, the case of the mode words) is in
assumption log 7.
-/

namespace Sys2Proof.Machine

/-! ### Pseudo-operations -/

/-- The expansions of rule R69. -/
def expandPseudo : PseudoOp → Except AsmError (List Instr)
  | .wrreg r v => if directAccepted r then .ok [.wrctrl r, .wrdata v] else .error .wrregAbove15
  | .rdreg r => .ok [.wrctrl (r.setWidth 8), .rddata]
  | .flush => .ok [.setsyncFlush]

/-! ### Tokens -/

/-- The token gathered so far (its characters in reverse), if there is one. -/
def gathered : List Char → List (List Char)
  | [] => []
  | cs => [cs.reverse]

/-- The tokens of a line after those characters: words, and each comma by itself; `;` begins a comment to the end of
the line. -/
def tokensFrom (cur : List Char) : List Char → List (List Char)
  | [] => gathered cur
  | ch :: rest =>
    if ch = ';' then gathered cur
    else if ch.isWhitespace then gathered cur ++ tokensFrom [] rest
    else if ch = ',' then gathered cur ++ [','] :: tokensFrom [] rest
    else tokensFrom (ch :: cur) rest

/-- A word in lower case: mnemonics are case-insensitive (rule R68). -/
def lowered (word : List Char) : String := String.ofList (word.map Char.toLower)

/-! ### Numbers -/

/-- The value of a hexadecimal digit. -/
def hexDigit (ch : Char) : Option Nat :=
  if '0' ≤ ch ∧ ch ≤ '9' then some (ch.toNat - '0'.toNat)
  else if 'a' ≤ ch ∧ ch ≤ 'f' then some (ch.toNat - 'a'.toNat + 10)
  else if 'A' ≤ ch ∧ ch ≤ 'F' then some (ch.toNat - 'A'.toNat + 10)
  else none

/-- The number the digits spell in the base, after a part worth `acc`. -/
def digitsFrom (base acc : Nat) : List Char → Option Nat
  | [] => some acc
  | ch :: rest =>
    match hexDigit ch with
    | some d => if d < base then digitsFrom base (acc * base + d) rest else none
    | none => none

/-- A decimal or `0x` hexadecimal number (rule R68), of at least one digit. -/
def numberOf : List Char → Option Nat
  | '0' :: 'x' :: d :: rest => digitsFrom 16 0 (d :: rest)
  | d :: rest => digitsFrom 10 0 (d :: rest)
  | [] => none

/-- An operand below `bound`. -/
def operandBelow (bound : Nat) (word : List Char) : Except AsmError Nat :=
  match numberOf word with
  | some n => if n < bound then .ok n else .error .operandRange
  | none => .error .badLine

/-- An operand in 0..255. -/
def byteOperand (word : List Char) : Except AsmError Byte := (operandBelow 256 word).map (BitVec.ofNat 8)

/-- A natural operand of any size. -/
def naturalOperand (word : List Char) : Except AsmError Nat :=
  match numberOf word with
  | some n => .ok n
  | none => .error .badLine

/-! ### Lines -/

/-- The three modes `setsync` names. -/
def assembleMode (mode : List Char) : Except AsmError (List Instr) :=
  match lowered mode with
  | "async" => .ok [.setsyncAsync]
  | "sync" => .ok [.setsyncSync]
  | "flush" => .ok [.setsyncFlush]
  | _ => .error .badLine

/-- One operation or pseudo-operation a line (rule R68); an empty line, or one of comment alone, spells none. -/
def assembleLine (line : List Char) : Except AsmError (List Instr) :=
  match tokensFrom [] line with
  | [] => .ok []
  | name :: operands =>
    match lowered name, operands with
    | "wrctrl", [v] => do return [.wrctrl (← byteOperand v)]
    | "wrdata", [v] => do return [.wrdata (← byteOperand v)]
    | "rddata", [] => .ok [.rddata]
    | "wrdirect", [r, [','], v] => do return [.wrdirect (← byteOperand r) (← byteOperand v)]
    | "setsync", [mode] => assembleMode mode
    | "advance", [us] => do return [.advance (← naturalOperand us)]
    | "reset", [clockHz, [','], first] => do return [.reset (← naturalOperand clockHz) (← naturalOperand first)]
    | "wrreg", [r, [','], v] => do expandPseudo (.wrreg (← byteOperand r) (← byteOperand v))
    | "rdreg", [r] => do expandPseudo (.rdreg (BitVec.ofNat 4 (← operandBelow 16 r)))
    | "flush", [] => expandPseudo .flush
    | _, _ => .error .badLine

/-- The operations of a text, line by line; the first line refused refuses the text. -/
def assemble : List (List Char) → Except AsmError (List Instr)
  | [] => .ok []
  | line :: rest => do return (← assembleLine line) ++ (← assemble rest)

/-- The operations join those the host has still to issue. -/
def State.issue (s : State) (ops : List Instr) : State := s.withStream (s.stream ++ ops.map .call)

end Sys2Proof.Machine
end

