-- ==== Sys2Proof/Machine/Rig.lean ====
section
/-!
DEFINITION. Several chips that share one mixer (00_scope.md rule R10, 60_exceptions.md rule R181). They share no
state; each operation is of one chip; the mixer hears the notifications in the order the host's calls emit them.
-/

namespace Sys2Proof.Machine

/-- The chips of a host, and everything their mixer has been told (DEDUCED, assumption log 11). -/
structure Rig where
  chips : List State
  mixer : List Notification
  deriving DecidableEq, Repr

/-- The records `after` holds beyond those of `before`. -/
def newRecords (before after : State) : List Notification := after.trace.drop before.trace.length

/-- Operation `i` issued on the chip at position `j`. -/
def Rig.exec (rig : Rig) (j : Fin rig.chips.length) (i : Instr) : Host.Outcome Rig Fault Refusal :=
  match Sys2Proof.Machine.exec i rig.chips[j] with
  | .next s => .next { chips := rig.chips.set j s, mixer := rig.mixer ++ newRecords rig.chips[j] s }
  | .fault r => .fault r
  | .refused r => .refused r

end Sys2Proof.Machine
end

