-- ==== Sys2Proof/Machine/Run.lean ====
section
/-!
DEFINITION. A straight line of operations (30_encoding.md rule R70), for statements about more than one.
-/

namespace Sys2Proof.Machine

/-- The operations one after another, stopping at the first that does not answer a next state. -/
def execAll : List Instr → State → Host.Outcome State Fault Refusal
  | [], s => .next s
  | i :: rest, s =>
    match exec i s with
    | .next s' => execAll rest s'
    | .fault r => .fault r
    | .refused r => .refused r

end Sys2Proof.Machine
end

