-- ==== Sys2Proof/Safety.lean ====
section
/-!
DEFINITION. The terms of the statements: when a chip takes every operation, and the invariant that rules out the
states no run reaches.
-/

namespace Sys2Proof.Machine

/-- RESET has been issued and no notification is in progress: every operation is available
(60_exceptions.md rule R178). -/
def State.Ready (s : State) : Prop := s.resetDone = true ∧ s.notifying = false

/-- What every completed operation leaves true of the chip. -/
structure ChipState.Inv (c : ChipState) : Prop where
  /-- In Async mode nothing stays pending (40_port_protocol.md rule R87). -/
  asyncMask : c.syncMode = .async → c.changedMask = 0
  /-- The envelope period is the one R11, R12 and `clockBase` give (10_state.md rule R37, 42_envelope.md rule R122). -/
  period : c.envelopePeriod = envPeriodOf c.envPeriodField.toNat c.clockBase
  /-- A stopped envelope stands at its start (42_envelope.md rule R129). -/
  stopped : c.clockBase = 0 → c.envelopeCounter = 0 ∧ c.envelopePhase = 0

/-- The invariant of the machine: between operations no notification is in progress, and once RESET has been issued the
chip's invariant holds. Before that the chip's state is undefined (70_reset_and_hazards.md rule R192). -/
structure State.Inv (s : State) : Prop where
  idle : s.notifying = false
  chip : s.resetDone = true → s.chip.Inv

end Sys2Proof.Machine
end

