-- ==== Sys2Proof/Certificates/Slice0/Obligations.lean ====
section
/-!
DEFINITION. The statements. What they name of the model beside `exec` and `step`: `State.Ready` and `Inv` (Safety.lean),
`ChipState.reg` (one register), `record` (the notification of one channel, which `FlushCarriesTheDerivedValues` spells
out), `execAll` (operations one after another).
A docstring that names a decision D<n> of 92_eei_decisions.md says that the clause rests on the spec's own choice and
not on its source; one that names an assumption log entry says that it rests on the model's choice.
-/

open Sys2Proof Sys2Proof.Machine

/-! ### Encoding -/

/-- The words of 95_test_vectors.md T10: at least one of each operation, and a word of each kind that spells none. The
encoding is decision D2, the refusals decision D31. -/
def Obligations.SampleWordsDecode : Prop :=
  decode 0x000000000000001F#64 = .ok (.wrctrl 0x1F) ∧
  decode 0x20000000000000FE#64 = .ok (.wrdata 0xFE) ∧
  decode 0x4000000000000000#64 = .ok .rddata ∧
  decode 0x6000000000000D0E#64 = .ok (.wrdirect 13 0x0E) ∧
  decode 0x6000000000001055#64 = .ok (.wrdirect 16 0x55) ∧
  decode 0x8000000000000000#64 = .ok .setsyncAsync ∧
  decode 0x8000000000000001#64 = .ok .setsyncSync ∧
  decode 0x8000000000000002#64 = .ok .setsyncFlush ∧
  decode 0x8000000000000003#64 = .error .reservedMode ∧
  decode 0xA0000000000003E8#64 = .ok (.advance 1000) ∧
  decode 0xC0000000001E8480#64 = .ok (.reset 2000000 0) ∧
  decode 0xC0000006001B4F4C#64 = .ok (.reset 1789772 6) ∧
  decode 0xE000000000000000#64 = .error .reservedOp ∧
  decode 0x4000000000000001#64 = .error .mustBeZero ∧
  decode 0x0000000000000100#64 = .error .mustBeZero

/-- The word of every operation the encoded form can hold (rule R63's limits) decodes to that operation. -/
def Obligations.DecodeOfEncodeIsTheOperation : Prop :=
  ∀ i : Instr, i.wellFormed = true → decode (encode i) = .ok i

/-- Every operation has one word: what a word decodes to is well-formed and encodes to that word. -/
def Obligations.EncodeOfDecodeIsTheWord : Prop :=
  ∀ (t : Transaction) (i : Instr), decode t = .ok i → i.wellFormed = true ∧ encode i = t

/-- A decoded word is covered by the opcode table's row of its operation and by no other row, and a refused word by none
(spec/opcode_table.json). -/
def Obligations.DecoderAgreesWithTheOpcodeTable : Prop :=
  (∀ (t : Transaction) (i : Instr), decode t = .ok i →
    (∃ row ∈ opcodeTable, row.covers t = true) ∧
    ∀ row ∈ opcodeTable, row.covers t = true → row.mnemonic = i.mnemonic) ∧
  (∀ (t : Transaction) (e : DecodeError), decode t = .error e → ∀ row ∈ opcodeTable, row.covers t = false)

/-- The words that spell no operation are those with op 7, SETSYNC words of mode 3, and those with a nonzero
must-be-zero bit, and no others; the step refuses each by its name (decision D31). Which name a word refused for two
reasons has (a SETSYNC word of mode 3 with a nonzero must-be-zero bit is `mustBeZero`), and that a word which spells
nothing is named so before the first RESET and inside a notification too, is the model's choice (assumption log 10). -/
def Obligations.RefusedWordsAreTheReservedOnes : Prop :=
  ∀ (t : Transaction) (s : State) (rest : List HostCall), s.stream = .word t :: rest →
    let op := (t.extractLsb' 61 3).toNat
    let mbz := (op ≤ 1 ∧ t.extractLsb' 8 53 ≠ 0) ∨ (op = 2 ∧ t.extractLsb' 0 61 ≠ 0) ∨
      (op = 3 ∧ t.extractLsb' 16 45 ≠ 0) ∨ (op = 4 ∧ t.extractLsb' 2 59 ≠ 0) ∨ (op = 5 ∧ t.extractLsb' 32 29 ≠ 0)
    let mode3 := op = 4 ∧ t.extractLsb' 2 59 = 0 ∧ (t.extractLsb' 0 2).toNat = 3
    (op = 7 → step s = .refused (.undecodable .reservedOp)) ∧
    (mode3 → step s = .refused (.undecodable .reservedMode)) ∧
    (mbz → step s = .refused (.undecodable .mustBeZero)) ∧
    (op ≠ 7 → ¬ mode3 → ¬ mbz → ∃ i, decode t = .ok i ∧ step s = exec i (s.withStream rest))

/-! ### The step -/

/-- A step takes the next call off the host's stream and is `exec` of the operation it spells at that state; a word that
spells none is refused, in every state; with nothing issued the state is kept. That the calls are a list in the state, that
an idle step keeps it, that such a word is named `undecodable` before the first RESET and inside a notification too, and
that abstract calls stand beside words is the model's choice (assumption log 2, 3, 10 and 12). -/
def Obligations.StepRunsTheNextOperation : Prop :=
  ∀ (s : State) (rest : List HostCall),
    (∀ (t : Transaction) (i : Instr), s.stream = .word t :: rest → decode t = .ok i →
      step s = exec i { s with stream := rest }) ∧
    (∀ i : Instr, s.stream = .call i :: rest → step s = exec i { s with stream := rest }) ∧
    (∀ (t : Transaction) (e : DecodeError), s.stream = .word t :: rest → decode t = .error e →
      step s = .refused (.undecodable e)) ∧
    (s.stream = [] → step s = .next s)

/-- An opcode-table word issued next is decoded and run at once, at the state as it was. -/
def Obligations.IssuedTableWordRunsAtOnce : Prop :=
  ∀ (s : State) (nbits w : Nat) (i : Instr), decodeTableWord nbits w = some i →
    step (s.withFetchWord nbits w) = exec i s

/-! ### Availability -/

/-- Every operation, with every operand, completes once RESET has been issued, with no notification in progress: no
value 0-255 of WRCTRL or WRDATA, no register or value 0-255 of WRDIRECT, no duration (0 too), no clock rate (0 too) and
no offset is refused, and nothing faults. WRCTRL narrows its value; WRDIRECT of registers 16-255 is a no-op. -/
def Obligations.EveryOperandOfEveryOperationIsLegal : Prop :=
  ∀ (i : Instr) (s : State), s.Ready →
    ∃ t, exec i s = .next t ∧
      (∀ v : Byte, i = .wrctrl v → t.chip.latch.toNat = v.toNat % 16) ∧
      (∀ r v : Byte, i = .wrdirect r v → 15 < r.toNat → t = s)

/-- Before the first RESET only RESET runs; every other operation is refused by name (decision D26). -/
def Obligations.OnlyResetRunsBeforeReset : Prop :=
  ∀ (i : Instr) (s : State), s.resetDone = false → s.notifying = false →
    (∀ clockHz first, i = .reset clockHz first → ∃ t, exec i s = .next t ∧ t.Ready) ∧
    ((∀ clockHz first, i ≠ .reset clockHz first) → exec i s = .refused .beforeReset)

/-- While the mixer is called with channel k's record the chip's state is as it was, with every notified channel still in
`changedMask`; the pending channels up to k have been notified; and every operation issued then is refused, RESET too
(decision D34). -/
def Obligations.OperationsInsideANotificationAreRefused : Prop :=
  ∀ (s : State) (k : Fin 6), s.Ready → s.chip.changedMask.getLsbD k.val = true →
    (s.atCallback k).chip = s.chip ∧
    (s.atCallback k).trace =
      s.trace ++ (((List.finRange 6).filter fun j => s.chip.changedMask.getLsbD j.val && decide (j ≤ k)).map s.chip.record) ∧
    ∀ i : Instr, exec i (s.atCallback k) = .refused .insideNotification

/-! ### The port protocol -/

/-- WRCTRL writes the latch, with the low 4 bits of its value, and nothing else in either mode: values of the same low
4 bits (0x1F and 0x0F) behave identically. -/
def Obligations.WrctrlLatchesTheLowFourBits : Prop :=
  ∀ (s : State) (v : Byte), s.Ready →
    exec (.wrctrl v) s = .next { s with chip := { s.chip with latch := v.setWidth 4 } } ∧
    ∀ v' : Byte, v'.toNat % 16 = v.toNat % 16 → exec (.wrctrl v') s = exec (.wrctrl v) s

/-- RDDATA returns the whole byte of the selected register and changes nothing else; right after RESET that is register
0, which holds 0. -/
def Obligations.RddataReadsBackTheSelectedRegister : Prop :=
  (∀ s : State, s.Ready →
    exec .rddata s = .next { s with returned := s.returned ++ [s.chip.reg s.chip.latch] }) ∧
  (∀ (s t : State) (clockHz first : Nat), exec (.reset clockHz first) s = .next t →
    exec .rddata t = .next { t with returned := t.returned ++ [0] })

/-- In Sync mode WRDATA is the register write of rule R82 and nothing more: the whole byte is stored and no other
register changes; the channels of `dirty(latch)` are marked; R11 and R12 recompute the period and leave counter and phase;
R13 zeroes counter and phase; every other field stays. -/
def Obligations.SyncWrdataIsTheRegisterWrite : Prop :=
  ∀ (s : State) (v : Byte), s.Ready → s.chip.syncMode = .sync →
    ∃ c : ChipState, exec (.wrdata v) s = .next { s with chip := c } ∧
      (∀ j, c.reg j = if j = s.chip.latch then v else s.chip.reg j) ∧
      c.changedMask = s.chip.changedMask ||| c.dirty s.chip.latch ∧
      c.envelopePeriod = (if s.chip.latch = 11 ∨ s.chip.latch = 12
        then envPeriodOf (c.reg 12 ++ c.reg 11).toNat s.chip.clockBase else s.chip.envelopePeriod) ∧
      c.envelopeCounter = (if s.chip.latch = 13 then 0 else s.chip.envelopeCounter) ∧
      c.envelopePhase = (if s.chip.latch = 13 then 0 else s.chip.envelopePhase) ∧
      c.latch = s.chip.latch ∧ c.syncMode = .sync ∧
      c.clockBase = s.chip.clockBase ∧ c.firstChannel = s.chip.firstChannel

/-- In Async mode WRDATA does the same register write and then notifies every channel pending, the old ones (decision
D21) and those it marks, in ascending order (decision D19), with the values after the write; the mask is left empty. -/
def Obligations.AsyncWrdataNotifiesEveryPendingChannel : Prop :=
  ∀ (s : State) (v : Byte), s.Ready → s.chip.syncMode = .async →
    ∃ c : ChipState,
      exec (.wrdata v) s = .next { s with
        chip := c
        trace := s.trace ++ ((List.finRange 6).filter fun k =>
          (s.chip.changedMask ||| c.dirty s.chip.latch).getLsbD k.val).map c.record } ∧
      c.changedMask = 0 ∧
      (∀ j, c.reg j = if j = s.chip.latch then v else s.chip.reg j) ∧
      c.envelopePeriod = (if s.chip.latch = 11 ∨ s.chip.latch = 12
        then envPeriodOf (c.reg 12 ++ c.reg 11).toNat s.chip.clockBase else s.chip.envelopePeriod) ∧
      c.envelopeCounter = (if s.chip.latch = 13 then 0 else s.chip.envelopeCounter) ∧
      c.envelopePhase = (if s.chip.latch = 13 then 0 else s.chip.envelopePhase) ∧
      c.latch = s.chip.latch ∧ c.syncMode = .async ∧
      c.clockBase = s.chip.clockBase ∧ c.firstChannel = s.chip.firstChannel

/-- WRDIRECT of a register up to 15 is WRCTRL of it and then WRDATA: the latch is set to it and the write follows, with
the same notifications. Of a register above 15 it changes nothing and notifies nothing in either mode (that it does not
flush: decision D28). -/
def Obligations.WrdirectIsThePortPair : Prop :=
  ∀ (s : State) (r v : Byte), s.Ready →
    (r.toNat ≤ 15 → ∃ t, exec (.wrdirect r v) s = .next t ∧
      execAll [.wrctrl r, .wrdata v] s = .next t ∧
      exec (.wrdata v) { s with chip := { s.chip with latch := r.setWidth 4 } } = .next t ∧
      t.chip.latch.toNat = r.toNat) ∧
    (15 < r.toNat → exec (.wrdirect r v) s = .next s)

/-- Every one of the 16 registers stores the whole byte written to it and reads it back, by the latch or by a direct
write, in either mode, and no other register changes. -/
def Obligations.EveryRegisterReadsBackTheWholeByte : Prop :=
  ∀ (s : State) (r : RegIndex) (v : Byte), s.Ready →
    (∃ t, execAll [.wrctrl (r.setWidth 8), .wrdata v, .rddata] s = .next t ∧
      t.returned = s.returned ++ [v] ∧ t.chip.reg r = v ∧ ∀ j, j ≠ r → t.chip.reg j = s.chip.reg j) ∧
    (∃ t, execAll [.wrdirect (r.setWidth 8) v, .rddata] s = .next t ∧
      t.returned = s.returned ++ [v] ∧ t.chip.reg r = v ∧ ∀ j, j ≠ r → t.chip.reg j = s.chip.reg j)

/-- Writing the same byte to the same register again leaves the chip as one write left it (whatever it notifies), and a
second write to R13 restarts the envelope as the first did. -/
def Obligations.RepeatedWriteLeavesTheChipAsOne : Prop :=
  ∀ (s : State) (v : Byte), s.Ready →
    ∃ t u, exec (.wrdata v) s = .next t ∧ exec (.wrdata v) t = .next u ∧ u.chip = t.chip

/-- The channels a write marks, whether or not the byte changes (decisions D15 and D16): the tone of a tone pair, the
three noise channels for R6, all for R7, tone and noise of a volume register's channel, the envelope-mode channels for
R13, and none for R11, R12, R14 and R15. -/
def Obligations.ChannelsMarkedByARegisterWrite : Prop :=
  ∀ (s : State) (i : RegIndex) (v : Byte) (k : Fin 6), s.Ready → s.chip.syncMode = .sync →
    ∃ t, exec (.wrdirect (i.setWidth 8) v) s = .next t ∧
      (t.chip.changedMask.getLsbD k.val = true ↔
        s.chip.changedMask.getLsbD k.val = true ∨
        (i.toNat < 6 ∧ k.val = i.toNat / 2) ∨
        (i = 6 ∧ 3 ≤ k.val) ∨
        i = 7 ∨
        (8 ≤ i.toNat ∧ i.toNat ≤ 10 ∧ k.val % 3 = i.toNat - 8) ∨
        (i = 13 ∧ (s.chip.reg (BitVec.ofNat 4 (8 + k.val % 3))).getLsbD 4 = true))

/-- A write to R11 or R12 sets the envelope period to `max(1, floor(1000000 * EP / clockBase))` microseconds, EP = 0
counting as 1, and to 0 where the clock base is 0 (decision D8); no other register changes, and counter and phase
stay. -/
def Obligations.EnvelopePeriodFollowsItsRegisters : Prop :=
  ∀ (s : State) (v : Byte), s.Ready →
    (∃ t, exec (.wrdirect 11 v) s = .next t ∧
      t.chip.envelopePeriod = (if s.chip.clockBase = 0 then 0 else
        max 1 (1000000 * max 1 (256 * (s.chip.reg 12).toNat + v.toNat) / s.chip.clockBase)) ∧
      t.chip.envelopeCounter = s.chip.envelopeCounter ∧ t.chip.envelopePhase = s.chip.envelopePhase ∧
      t.chip.reg 11 = v ∧ ∀ j, j ≠ 11 → t.chip.reg j = s.chip.reg j) ∧
    (∃ t, exec (.wrdirect 12 v) s = .next t ∧
      t.chip.envelopePeriod = (if s.chip.clockBase = 0 then 0 else
        max 1 (1000000 * max 1 (256 * v.toNat + (s.chip.reg 11).toNat) / s.chip.clockBase)) ∧
      t.chip.envelopeCounter = s.chip.envelopeCounter ∧ t.chip.envelopePhase = s.chip.envelopePhase ∧
      t.chip.reg 12 = v ∧ ∀ j, j ≠ 12 → t.chip.reg j = s.chip.reg j)

/-! ### Tone and noise -/

/-- A tone period of 0 counts as 1: the divisor is 1 for both and the period itself otherwise, so it is never 0, never
above 4095, and period 0 gives the greatest frequency there is (the pair order is decision D4, the whole quotient D6). -/
def Obligations.TonePeriodZeroCountsAsOne : Prop :=
  ∀ (c : ChipState) (n : Fin 3),
    let tp := (c.reg (BitVec.ofNat 4 (2 * n.val + 1))).toNat % 16 * 256 + (c.reg (BitVec.ofNat 4 (2 * n.val))).toNat
    let divisor := if tp = 0 then 1 else tp
    1 ≤ divisor ∧ divisor ≤ 4095 ∧
    c.toneFreq n = c.clockBase / divisor ∧
    (tp = 0 → c.toneFreq n = c.clockBase) ∧ (tp = 1 → c.toneFreq n = c.clockBase) ∧
    c.toneFreq n ≤ c.clockBase

/-- The record a flush emits for a channel that alone is pending, from the registers at the flush: mixer channel
`firstChannel + k`; the tone frequency of channels 0-2 and the noise frequency of channels 3-5; the envelope level or the
fixed level of the channel it sounds on; enabled where bit k of R7 is 0 (decisions D3-D7, D9, D10, D14, D17, D18). -/
def Obligations.FlushCarriesTheDerivedValues : Prop :=
  ∀ (s : State) (k : Fin 6), s.Ready → s.chip.changedMask = BitVec.twoPow 6 k.val →
    let c := s.chip
    let n := k.val % 3
    let tp := (c.reg (BitVec.ofNat 4 (2 * n + 1))).toNat % 16 * 256 + (c.reg (BitVec.ofNat 4 (2 * n))).toNat
    let np := (c.reg 6).toNat % 32
    let volume := c.reg (BitVec.ofNat 4 (8 + n))
    ∃ record : Notification,
      exec .setsyncFlush s = .next { s with chip := { c with changedMask := 0 }, trace := s.trace ++ [record] } ∧
      record.channel = c.firstChannel + k.val ∧
      record.frequency = c.clockBase / (if k.val < 3 then max 1 tp else max 1 np) ∧
      record.volume.toNat = (if volume.toNat / 16 % 2 = 1
        then (envTable ((c.reg 13).setWidth 4) c.envelopePhase).toNat else volume.toNat % 16) ∧
      (record.enabled = true ↔ (c.reg 7).toNat / 2 ^ k.val % 2 = 0)

/-- One step of the auxiliary noise generator (decision D35, general knowledge): bit 0 XOR bit 3 comes in at bit 16 and
the rest moves down one place; a nonzero state never becomes zero; the seed is not zero. -/
def Obligations.NoiseStepShiftsInTheFeedback : Prop :=
  (∀ s : NoiseState,
    (noiseStep s).toNat = (s.toNat % 2 + s.toNat / 8 % 2) % 2 * 65536 + s.toNat / 2 ∧
    (s ≠ 0 → noiseStep s ≠ 0)) ∧
  noiseSeed ≠ 0

/-- From any nonzero state the auxiliary noise generator has period 2^17 - 1 and no shorter one (decision D35). -/
def Obligations.NoiseSequenceHasFullPeriod : Prop :=
  ∀ s : NoiseState, s ≠ 0 →
    noiseRun 131071 s = s ∧ ∀ m, 0 < m → m < 131071 → noiseRun m s ≠ s

/-! ### The envelope -/

/-- ADVANCE takes the steps of the loop of rule R128 until the counter is below the period, all of them before its one
flush (decision D22); with period 0 it does nothing (decision D40). That the meaning computes the closed form and stands
for the loop is the model's choice (assumption log 9). -/
def Obligations.AdvanceRunsTheCatchUpLoop : Prop :=
  ∀ (s : State) (us : Nat), s.Ready →
    (s.chip.envelopePeriod = 0 → exec (.advance us) s = .next s) ∧
    (s.chip.envelopePeriod ≠ 0 →
      exec (.advance us) s = .next (s.withChip (s.chip.advanceLoop us)).flushIfAsync ∧
      (s.chip.advanceLoop us).envelopeCounter < s.chip.envelopePeriod)

/-- What ADVANCE leaves, with k the steps due: counter `(c + us) mod P`; phase `(p + k) mod 32` for repeating shapes and
`min(31, p + k)` otherwise (decision D13); the envelope-mode channels marked when k ≥ 1; in Sync mode no notification, in
Async mode one per pending channel in ascending order (decision D19) and an empty mask; nothing else changes. -/
def Obligations.AdvanceLeavesTheClosedForm : Prop :=
  ∀ (s : State) (us : Nat), s.Ready → s.chip.envelopePeriod ≠ 0 →
    let k := (s.chip.envelopeCounter + us) / s.chip.envelopePeriod
    let shape := (s.chip.reg 13).toNat % 16
    let marked (j : Fin 6) : Bool := s.chip.changedMask.getLsbD j.val ||
      (decide (1 ≤ k) && (s.chip.reg (BitVec.ofNat 4 (8 + j.val % 3))).getLsbD 4)
    ∃ (p : Phase) (mask : ChannelSet),
      let c := { s.chip with
        envelopeCounter := (s.chip.envelopeCounter + us) % s.chip.envelopePeriod
        envelopePhase := p
        changedMask := mask }
      p.toNat = (if 8 ≤ shape ∧ shape % 2 = 0
        then (s.chip.envelopePhase.toNat + k) % 32 else min 31 (s.chip.envelopePhase.toNat + k)) ∧
      (s.chip.syncMode = .sync →
        exec (.advance us) s = .next { s with chip := c } ∧ ∀ j : Fin 6, mask.getLsbD j.val = marked j) ∧
      (s.chip.syncMode = .async →
        exec (.advance us) s = .next { s with
          chip := c
          trace := s.trace ++ ((List.finRange 6).filter marked).map c.record } ∧
        mask = 0)

/-- One-shot decay: after a write of shape 0-3 to R13, `n` calls of ADVANCE(envelopePeriod) bring the phase to
`min(31, n)` and the level to `15 - n`, and to 0 from call 15 on (decisions D12, D13 and D23). -/
def Obligations.OneShotDecayReachesItsEnd : Prop :=
  ∀ (s : State) (v : Byte) (n : Nat), s.Ready → s.chip.envelopePeriod ≠ 0 → v.toNat % 16 < 4 →
    ∃ t, execAll (.wrdirect 13 v :: List.replicate n (.advance s.chip.envelopePeriod)) s = .next t ∧
      t.chip.envelopePhase.toNat = min 31 n ∧ t.chip.envLevel.toNat = 15 - n

/-- A shape that does not repeat holds: from phase 31 no ADVANCE moves the phase or the level of any channel. -/
def Obligations.HeldEnvelopeKeepsItsLevels : Prop :=
  ∀ (s : State) (us : Nat), s.Ready → s.chip.envelopePhase = 31 →
    ((s.chip.reg 13).getLsbD 3 = false ∨ (s.chip.reg 13).getLsbD 0 = true) →
    ∃ t, exec (.advance us) s = .next t ∧ t.chip.envelopePhase = 31 ∧ ∀ n, t.chip.level n = s.chip.level n

/-! ### The sync controller -/

/-- SETSYNC.FLUSH leaves the mode, notifies every channel in `changedMask` exactly once and no other, clears the mask,
and changes nothing else. -/
def Obligations.SetsyncFlushNotifiesEveryChangedChannel : Prop :=
  ∀ s : State, s.Ready →
    ∃ records : List Notification,
      exec .setsyncFlush s = .next { s with
        chip := { s.chip with changedMask := 0 }
        trace := s.trace ++ records } ∧
      records.Perm (((List.finRange 6).filter fun k => s.chip.changedMask.getLsbD k.val).map s.chip.record)

/-- SETSYNC.ASYNC and SETSYNC.SYNC set the mode and flush (decision D20), in ascending order (decision D19). -/
def Obligations.SetsyncSetsTheModeAndFlushes : Prop :=
  ∀ s : State, s.Ready →
    let records := ((List.finRange 6).filter fun k => s.chip.changedMask.getLsbD k.val).map s.chip.record
    exec .setsyncAsync s = .next { s with
      chip := { s.chip with syncMode := .async, changedMask := 0 }
      trace := s.trace ++ records } ∧
    exec .setsyncSync s = .next { s with
      chip := { s.chip with syncMode := .sync, changedMask := 0 }
      trace := s.trace ++ records }

/-- In Sync mode any sequence of WRCTRL, WRDATA, WRDIRECT, RDDATA and ADVANCE completes, notifies nothing, stays in Sync
and loses no pending channel; the SETSYNC after it, of any mode, notifies each channel then pending, once, with the values
of that moment (ascending: decision D19; that Async and Sync flush: decision D20). -/
def Obligations.SyncModeIsSilentUntilASetsync : Prop :=
  ∀ (ops : List Instr) (s : State), s.Ready → s.chip.syncMode = .sync →
    (∀ i ∈ ops, i.mnemonic ∈ ["WRCTRL", "WRDATA", "WRDIRECT", "RDDATA", "ADVANCE"]) →
    ∃ t, execAll ops s = .next t ∧ t.trace = s.trace ∧ t.chip.syncMode = .sync ∧
      (∀ k : Fin 6, s.chip.changedMask.getLsbD k.val = true → t.chip.changedMask.getLsbD k.val = true) ∧
      ∀ i ∈ [Instr.setsyncAsync, .setsyncSync, .setsyncFlush], ∃ u, execAll (ops ++ [i]) s = .next u ∧
        u.chip.changedMask = 0 ∧
        u.trace = s.trace ++ ((List.finRange 6).filter fun k => t.chip.changedMask.getLsbD k.val).map t.chip.record

/-- No operation takes a notification back, and none notifies a channel twice: what one operation adds to the trace is in
ascending channel order (decision D19) and of this chip's six mixer channels. -/
def Obligations.AnOperationNotifiesAChannelAtMostOnce : Prop :=
  ∀ (i : Instr) (s t : State), exec i s = .next t →
    ∃ records : List Notification, t.trace = s.trace ++ records ∧
      records.Pairwise (fun a b => a.channel < b.channel) ∧
      ∀ r ∈ records, s.chip.firstChannel ≤ r.channel ∧ r.channel < s.chip.firstChannel + 6

/-! ### Reset -/

/-- RESET sets every field of the chip, whatever it held before and whether or not it is the first; it notifies and
returns nothing, and every operation is available after it (decisions D5, D24 and D25). -/
def Obligations.ResetSetsEveryField : Prop :=
  ∀ (s : State) (clockHz first : Nat), s.notifying = false →
    ∃ c : ChipState, exec (.reset clockHz first) s = .next { s with chip := c, resetDone := true } ∧
      (∀ i, c.reg i = 0) ∧ c.latch = 0 ∧ c.syncMode = .async ∧ c.clockBase = clockHz / 16 ∧ c.firstChannel = first ∧
      c.changedMask = 0 ∧ c.envelopeCounter = 0 ∧ c.envelopePhase = 0 ∧
      c.envelopePeriod = (if clockHz < 16 then 0 else max 1 (1000000 / (clockHz / 16)))

/-- What the mixer would be told of a chip just reset: every channel enabled, at the frequency of the clock base, at level
0, on the mixer channels from `first` on; and the envelope stands at level 15, used by no channel (decisions D5, D9, D12
and D14). -/
def Obligations.ResetSoundsEveryChannelAtTheClockBase : Prop :=
  ∀ (s : State) (clockHz first : Nat), s.notifying = false →
    ∃ t, exec (.reset clockHz first) s = .next t ∧
      (∀ k : Fin 6, t.chip.record k = ⟨first + k.val, clockHz / 16, 0, true⟩) ∧
      t.chip.envLevel = 15 ∧ ∀ n, t.chip.usesEnvelope n = false

/-- `State.reset` is what RESET 2000000, 0 leaves of any idle chip, with nothing issued, returned or notified: its 16
registers read 0, its clock base is 125000 and its envelope period 8. That it stands after these operands is the model's
choice (assumption log 1). -/
def Obligations.ResetStateIsTheSpecsStart : Prop :=
  (∀ s : State, s.notifying = false → ∃ t, exec (.reset 2000000 0) s = .next t ∧ t.chip = State.reset.chip) ∧
  (∀ i, State.reset.chip.reg i = 0) ∧
  State.reset.chip.clockBase = 125000 ∧ State.reset.chip.envelopePeriod = 8 ∧ State.reset.chip.syncMode = .async ∧
  State.reset.Ready ∧ State.reset.stream = [] ∧ State.reset.returned = [] ∧ State.reset.trace = []

/-! ### Invariants and whole-machine rules -/

/-- The invariant holds right after reset. -/
def Obligations.ResetMeetsTheInvariant : Prop := State.reset.Inv

/-- Every step keeps the invariant: no notification in progress; once RESET has been issued, nothing pending in Async
mode, the envelope period the one R11, R12 and the clock base give, and a stopped envelope at its start. -/
def Obligations.EveryStepKeepsTheInvariant : Prop :=
  ∀ s t : State, s.Inv → step s = .next t → t.Inv

/-- Who writes what outside the register bank: the latch is written by WRCTRL, an accepted WRDIRECT and RESET only; the
mode by SETSYNC with Async or Sync and RESET only; the clock base and the channel offset by RESET only; values are
returned by RDDATA only; no operation touches the pending calls. -/
def Obligations.EachControlFieldHasItsWriters : Prop :=
  ∀ (i : Instr) (s t : State), exec i s = .next t →
    (t.chip.latch ≠ s.chip.latch → i.mnemonic ∈ ["WRCTRL", "WRDIRECT", "RESET"] ∧
      ∀ r v, i = .wrdirect r v → r.toNat ≤ 15) ∧
    (t.chip.syncMode ≠ s.chip.syncMode → i.mnemonic ∈ ["SETSYNC.ASYNC", "SETSYNC.SYNC", "RESET"]) ∧
    (t.chip.clockBase ≠ s.chip.clockBase ∨ t.chip.firstChannel ≠ s.chip.firstChannel → i.mnemonic = "RESET") ∧
    (t.returned ≠ s.returned → i = .rddata) ∧
    t.stream = s.stream ∧ t.notifying = false ∧ t.resetDone = true

/-- A register changes only by a WRDATA with the latch on it, a WRDIRECT of it, or RESET. -/
def Obligations.EachRegisterHasItsWriters : Prop :=
  ∀ (i : Instr) (s t : State) (j : RegIndex), exec i s = .next t → t.chip.reg j ≠ s.chip.reg j →
    (∃ v, i = .wrdata v ∧ s.chip.latch = j ∧ t.chip.reg j = v) ∨
    (∃ r v, i = .wrdirect r v ∧ r.toNat = j.toNat ∧ t.chip.reg j = v) ∨
    (∃ clockHz first, i = .reset clockHz first ∧ t.chip.reg j = 0)

/-- The envelope phase and counter change only by ADVANCE, a write to R13 (to 0) and RESET (to 0); the envelope period
only by a write to R11 or R12 and RESET. -/
def Obligations.EnvelopeTimerHasItsWriters : Prop :=
  ∀ (i : Instr) (s t : State), exec i s = .next t →
    let writes (j : Nat) : Prop :=
      (∃ v, i = .wrdata v ∧ s.chip.latch.toNat = j) ∨ (∃ r v, i = .wrdirect r v ∧ r.toNat = j)
    let zeroed : Prop := t.chip.envelopeCounter = 0 ∧ t.chip.envelopePhase = 0
    (t.chip.envelopePhase ≠ s.chip.envelopePhase ∨ t.chip.envelopeCounter ≠ s.chip.envelopeCounter →
      (∃ us, i = .advance us) ∨ (writes 13 ∧ zeroed) ∨ (i.mnemonic = "RESET" ∧ zeroed)) ∧
    (t.chip.envelopePeriod ≠ s.chip.envelopePeriod → writes 11 ∨ writes 12 ∨ i.mnemonic = "RESET")

/-! ### The assembler's pseudo-operations and several chips -/

/-- `wrreg r, v` with r up to 15 has the effect of `wrdirect r, v` and above 15 is refused; `rdreg r` returns R[r] and
leaves the latch on it; `flush` is SETSYNC.FLUSH (decision D2). -/
def Obligations.PseudoOperationsExpandToTheirEffect : Prop :=
  (∀ r v : Byte, r.toNat ≤ 15 →
    ∃ ops, expandPseudo (.wrreg r v) = .ok ops ∧ ∀ s, s.Ready → execAll ops s = exec (.wrdirect r v) s) ∧
  (∀ r v : Byte, 15 < r.toNat → expandPseudo (.wrreg r v) = .error .wrregAbove15) ∧
  (∀ r : RegIndex, ∃ ops, expandPseudo (.rdreg r) = .ok ops ∧ ∀ s : State, s.Ready →
    execAll ops s = .next { s with chip := { s.chip with latch := r }, returned := s.returned ++ [s.chip.reg r] }) ∧
  (∃ ops, expandPseudo .flush = .ok ops ∧ ∀ s : State, s.Ready → execAll ops s = exec .setsyncFlush s)

/-- Chips that share a mixer share nothing else: an operation on one leaves every other as it was, and what the mixer
hears of it are that chip's records, on its own six channels. -/
def Obligations.ChipsShareOnlyTheMixer : Prop :=
  ∀ (rig rig' : Rig) (j : Fin rig.chips.length) (i : Instr), rig.exec j i = .next rig' →
    ∃ (t : State) (records : List Notification),
      exec i rig.chips[j] = .next t ∧ rig'.chips[j.val]? = some t ∧
      (∀ l : Nat, l ≠ j.val → rig'.chips[l]? = rig.chips[l]?) ∧
      t.trace = rig.chips[j].trace ++ records ∧ rig'.mixer = rig.mixer ++ records ∧
      ∀ r ∈ records, rig.chips[j].chip.firstChannel ≤ r.channel ∧ r.channel < rig.chips[j].chip.firstChannel + 6
end

