-- ==== Sys2Proof/Laws/Decode.lean ====
section
/-!
SUPPORT. When the decoder answers an operation, format by format.
-/

namespace Sys2Proof

theorem requireZeroFrom_ok {lo : Nat} {t : Transaction} {i j : Instr} :
    requireZeroFrom lo t i = .ok j ↔ zeroFrom lo t = true ∧ i = j := by
  unfold requireZeroFrom
  split <;> simp_all

theorem zeroFrom_iff {lo : Nat} {t : Transaction} : zeroFrom lo t = true ↔ t.extractLsb' lo (61 - lo) = 0 := by
  simp [zeroFrom]

theorem opField_lt (t : Transaction) : opField t < 8 := (t.extractLsb' 61 3).isLt

theorem modeField_lt (t : Transaction) : modeField t < 4 := (t.extractLsb' 0 2).isLt

theorem lowField_lt (t : Transaction) : lowField t < 2 ^ 32 := (t.extractLsb' 0 32).isLt

theorem firstField_lt (t : Transaction) : firstField t < 2 ^ 29 := (t.extractLsb' 32 29).isLt

end Sys2Proof
end

