-- ==== Sys2Proof/Laws/State.lean ====
section
/-!
SUPPORT. One lemma per field per update of the chip and of the state, so that no proof unfolds a record update.
-/

namespace Sys2Proof.Machine

section Chip

variable (c : ChipState)

@[simp] theorem ChipState.setLatch_registers (i : RegIndex) : (c.setLatch i).registers = c.registers := rfl
@[simp] theorem ChipState.setLatch_latch (i : RegIndex) : (c.setLatch i).latch = i := rfl
@[simp] theorem ChipState.setLatch_syncMode (i : RegIndex) : (c.setLatch i).syncMode = c.syncMode := rfl
@[simp] theorem ChipState.setLatch_clockBase (i : RegIndex) : (c.setLatch i).clockBase = c.clockBase := rfl
@[simp] theorem ChipState.setLatch_firstChannel (i : RegIndex) : (c.setLatch i).firstChannel = c.firstChannel := rfl
@[simp] theorem ChipState.setLatch_changedMask (i : RegIndex) : (c.setLatch i).changedMask = c.changedMask := rfl
@[simp] theorem ChipState.setLatch_envelopePeriod (i : RegIndex) : (c.setLatch i).envelopePeriod = c.envelopePeriod := rfl
@[simp] theorem ChipState.setLatch_envelopeCounter (i : RegIndex) : (c.setLatch i).envelopeCounter = c.envelopeCounter := rfl
@[simp] theorem ChipState.setLatch_envelopePhase (i : RegIndex) : (c.setLatch i).envelopePhase = c.envelopePhase := rfl
@[simp] theorem ChipState.setLatch_reg (i : RegIndex) (j : RegIndex) : (c.setLatch i).reg j = c.reg j := rfl

@[simp] theorem ChipState.setMode_registers (mode : SyncMode) : (c.setMode mode).registers = c.registers := rfl
@[simp] theorem ChipState.setMode_latch (mode : SyncMode) : (c.setMode mode).latch = c.latch := rfl
@[simp] theorem ChipState.setMode_syncMode (mode : SyncMode) : (c.setMode mode).syncMode = mode := rfl
@[simp] theorem ChipState.setMode_clockBase (mode : SyncMode) : (c.setMode mode).clockBase = c.clockBase := rfl
@[simp] theorem ChipState.setMode_firstChannel (mode : SyncMode) : (c.setMode mode).firstChannel = c.firstChannel := rfl
@[simp] theorem ChipState.setMode_changedMask (mode : SyncMode) : (c.setMode mode).changedMask = c.changedMask := rfl
@[simp] theorem ChipState.setMode_envelopePeriod (mode : SyncMode) : (c.setMode mode).envelopePeriod = c.envelopePeriod := rfl
@[simp] theorem ChipState.setMode_envelopeCounter (mode : SyncMode) : (c.setMode mode).envelopeCounter = c.envelopeCounter := rfl
@[simp] theorem ChipState.setMode_envelopePhase (mode : SyncMode) : (c.setMode mode).envelopePhase = c.envelopePhase := rfl
@[simp] theorem ChipState.setMode_reg (mode : SyncMode) (j : RegIndex) : (c.setMode mode).reg j = c.reg j := rfl

@[simp] theorem ChipState.mark_registers (set : ChannelSet) : (c.mark set).registers = c.registers := rfl
@[simp] theorem ChipState.mark_latch (set : ChannelSet) : (c.mark set).latch = c.latch := rfl
@[simp] theorem ChipState.mark_syncMode (set : ChannelSet) : (c.mark set).syncMode = c.syncMode := rfl
@[simp] theorem ChipState.mark_clockBase (set : ChannelSet) : (c.mark set).clockBase = c.clockBase := rfl
@[simp] theorem ChipState.mark_firstChannel (set : ChannelSet) : (c.mark set).firstChannel = c.firstChannel := rfl
@[simp] theorem ChipState.mark_changedMask (set : ChannelSet) : (c.mark set).changedMask = c.changedMask ||| set := rfl
@[simp] theorem ChipState.mark_envelopePeriod (set : ChannelSet) : (c.mark set).envelopePeriod = c.envelopePeriod := rfl
@[simp] theorem ChipState.mark_envelopeCounter (set : ChannelSet) : (c.mark set).envelopeCounter = c.envelopeCounter := rfl
@[simp] theorem ChipState.mark_envelopePhase (set : ChannelSet) : (c.mark set).envelopePhase = c.envelopePhase := rfl
@[simp] theorem ChipState.mark_reg (set : ChannelSet) (j : RegIndex) : (c.mark set).reg j = c.reg j := rfl

@[simp] theorem ChipState.clearMask_registers : c.clearMask.registers = c.registers := rfl
@[simp] theorem ChipState.clearMask_latch : c.clearMask.latch = c.latch := rfl
@[simp] theorem ChipState.clearMask_syncMode : c.clearMask.syncMode = c.syncMode := rfl
@[simp] theorem ChipState.clearMask_clockBase : c.clearMask.clockBase = c.clockBase := rfl
@[simp] theorem ChipState.clearMask_firstChannel : c.clearMask.firstChannel = c.firstChannel := rfl
@[simp] theorem ChipState.clearMask_changedMask : c.clearMask.changedMask = 0 := rfl
@[simp] theorem ChipState.clearMask_envelopePeriod : c.clearMask.envelopePeriod = c.envelopePeriod := rfl
@[simp] theorem ChipState.clearMask_envelopeCounter : c.clearMask.envelopeCounter = c.envelopeCounter := rfl
@[simp] theorem ChipState.clearMask_envelopePhase : c.clearMask.envelopePhase = c.envelopePhase := rfl
@[simp] theorem ChipState.clearMask_reg (j : RegIndex) : c.clearMask.reg j = c.reg j := rfl

@[simp] theorem ChipState.setPeriod_registers (period : Nat) : (c.setPeriod period).registers = c.registers := rfl
@[simp] theorem ChipState.setPeriod_latch (period : Nat) : (c.setPeriod period).latch = c.latch := rfl
@[simp] theorem ChipState.setPeriod_syncMode (period : Nat) : (c.setPeriod period).syncMode = c.syncMode := rfl
@[simp] theorem ChipState.setPeriod_clockBase (period : Nat) : (c.setPeriod period).clockBase = c.clockBase := rfl
@[simp] theorem ChipState.setPeriod_firstChannel (period : Nat) : (c.setPeriod period).firstChannel = c.firstChannel := rfl
@[simp] theorem ChipState.setPeriod_changedMask (period : Nat) : (c.setPeriod period).changedMask = c.changedMask := rfl
@[simp] theorem ChipState.setPeriod_envelopePeriod (period : Nat) : (c.setPeriod period).envelopePeriod = period := rfl
@[simp] theorem ChipState.setPeriod_envelopeCounter (period : Nat) : (c.setPeriod period).envelopeCounter = c.envelopeCounter := rfl
@[simp] theorem ChipState.setPeriod_envelopePhase (period : Nat) : (c.setPeriod period).envelopePhase = c.envelopePhase := rfl
@[simp] theorem ChipState.setPeriod_reg (period : Nat) (j : RegIndex) : (c.setPeriod period).reg j = c.reg j := rfl

@[simp] theorem ChipState.setTimer_registers (counter : Nat) (phase : Phase) : (c.setTimer counter phase).registers = c.registers := rfl
@[simp] theorem ChipState.setTimer_latch (counter : Nat) (phase : Phase) : (c.setTimer counter phase).latch = c.latch := rfl
@[simp] theorem ChipState.setTimer_syncMode (counter : Nat) (phase : Phase) : (c.setTimer counter phase).syncMode = c.syncMode := rfl
@[simp] theorem ChipState.setTimer_clockBase (counter : Nat) (phase : Phase) : (c.setTimer counter phase).clockBase = c.clockBase := rfl
@[simp] theorem ChipState.setTimer_firstChannel (counter : Nat) (phase : Phase) : (c.setTimer counter phase).firstChannel = c.firstChannel := rfl
@[simp] theorem ChipState.setTimer_changedMask (counter : Nat) (phase : Phase) : (c.setTimer counter phase).changedMask = c.changedMask := rfl
@[simp] theorem ChipState.setTimer_envelopePeriod (counter : Nat) (phase : Phase) : (c.setTimer counter phase).envelopePeriod = c.envelopePeriod := rfl
@[simp] theorem ChipState.setTimer_envelopeCounter (counter : Nat) (phase : Phase) : (c.setTimer counter phase).envelopeCounter = counter := rfl
@[simp] theorem ChipState.setTimer_envelopePhase (counter : Nat) (phase : Phase) : (c.setTimer counter phase).envelopePhase = phase := rfl
@[simp] theorem ChipState.setTimer_reg (counter : Nat) (phase : Phase) (j : RegIndex) : (c.setTimer counter phase).reg j = c.reg j := rfl

@[simp] theorem ChipState.setReg_registers (i : RegIndex) (v : Byte) : (c.setReg i v).registers = c.registers.set i.toNat v i.isLt := rfl
@[simp] theorem ChipState.setReg_latch (i : RegIndex) (v : Byte) : (c.setReg i v).latch = c.latch := rfl
@[simp] theorem ChipState.setReg_syncMode (i : RegIndex) (v : Byte) : (c.setReg i v).syncMode = c.syncMode := rfl
@[simp] theorem ChipState.setReg_clockBase (i : RegIndex) (v : Byte) : (c.setReg i v).clockBase = c.clockBase := rfl
@[simp] theorem ChipState.setReg_firstChannel (i : RegIndex) (v : Byte) : (c.setReg i v).firstChannel = c.firstChannel := rfl
@[simp] theorem ChipState.setReg_changedMask (i : RegIndex) (v : Byte) : (c.setReg i v).changedMask = c.changedMask := rfl
@[simp] theorem ChipState.setReg_envelopePeriod (i : RegIndex) (v : Byte) : (c.setReg i v).envelopePeriod = c.envelopePeriod := rfl
@[simp] theorem ChipState.setReg_envelopeCounter (i : RegIndex) (v : Byte) : (c.setReg i v).envelopeCounter = c.envelopeCounter := rfl
@[simp] theorem ChipState.setReg_envelopePhase (i : RegIndex) (v : Byte) : (c.setReg i v).envelopePhase = c.envelopePhase := rfl

end Chip

section Whole

variable (s : State)

@[simp] theorem State.withChip_chip (c : ChipState) : (s.withChip c).chip = c := rfl
@[simp] theorem State.withChip_resetDone (c : ChipState) : (s.withChip c).resetDone = s.resetDone := rfl
@[simp] theorem State.withChip_notifying (c : ChipState) : (s.withChip c).notifying = s.notifying := rfl
@[simp] theorem State.withChip_stream (c : ChipState) : (s.withChip c).stream = s.stream := rfl
@[simp] theorem State.withChip_returned (c : ChipState) : (s.withChip c).returned = s.returned := rfl
@[simp] theorem State.withChip_trace (c : ChipState) : (s.withChip c).trace = s.trace := rfl

@[simp] theorem State.withStream_chip (calls : List HostCall) : (s.withStream calls).chip = s.chip := rfl
@[simp] theorem State.withStream_resetDone (calls : List HostCall) : (s.withStream calls).resetDone = s.resetDone := rfl
@[simp] theorem State.withStream_notifying (calls : List HostCall) : (s.withStream calls).notifying = s.notifying := rfl
@[simp] theorem State.withStream_stream (calls : List HostCall) : (s.withStream calls).stream = calls := rfl
@[simp] theorem State.withStream_returned (calls : List HostCall) : (s.withStream calls).returned = s.returned := rfl
@[simp] theorem State.withStream_trace (calls : List HostCall) : (s.withStream calls).trace = s.trace := rfl

@[simp] theorem State.ret_chip (v : Byte) : (s.ret v).chip = s.chip := rfl
@[simp] theorem State.ret_resetDone (v : Byte) : (s.ret v).resetDone = s.resetDone := rfl
@[simp] theorem State.ret_notifying (v : Byte) : (s.ret v).notifying = s.notifying := rfl
@[simp] theorem State.ret_stream (v : Byte) : (s.ret v).stream = s.stream := rfl
@[simp] theorem State.ret_returned (v : Byte) : (s.ret v).returned = s.returned ++ [v] := rfl
@[simp] theorem State.ret_trace (v : Byte) : (s.ret v).trace = s.trace := rfl

@[simp] theorem State.enterNotification_chip (record : Notification) : (s.enterNotification record).chip = s.chip := rfl
@[simp] theorem State.enterNotification_resetDone (record : Notification) : (s.enterNotification record).resetDone = s.resetDone := rfl
@[simp] theorem State.enterNotification_notifying (record : Notification) : (s.enterNotification record).notifying = true := rfl
@[simp] theorem State.enterNotification_stream (record : Notification) : (s.enterNotification record).stream = s.stream := rfl
@[simp] theorem State.enterNotification_returned (record : Notification) : (s.enterNotification record).returned = s.returned := rfl
@[simp] theorem State.enterNotification_trace (record : Notification) : (s.enterNotification record).trace = s.trace ++ [record] := rfl

@[simp] theorem State.leaveNotification_chip : s.leaveNotification.chip = s.chip := rfl
@[simp] theorem State.leaveNotification_resetDone : s.leaveNotification.resetDone = s.resetDone := rfl
@[simp] theorem State.leaveNotification_notifying : s.leaveNotification.notifying = false := rfl
@[simp] theorem State.leaveNotification_stream : s.leaveNotification.stream = s.stream := rfl
@[simp] theorem State.leaveNotification_returned : s.leaveNotification.returned = s.returned := rfl
@[simp] theorem State.leaveNotification_trace : s.leaveNotification.trace = s.trace := rfl

end Whole

end Sys2Proof.Machine
end

