-- ==== Sys2Proof/Laws/Envelope.lean ====
section
/-!
SUPPORT. The phase step and its closed form, and the fields ADVANCE leaves.
-/

namespace Sys2Proof.Machine

@[simp] theorem phaseAfter_zero (shape : Shape) (p : Phase) : phaseAfter shape p 0 = p := by
  unfold phaseAfter
  have := p.isLt
  split
  · simp [Nat.mod_eq_of_lt (show p.toNat < 32 from this)]
  · have h : min 31 (p.toNat + 0) = p.toNat := by omega
    rw [h, BitVec.ofNat_toNat, BitVec.setWidth_eq]

/-- One more step of the closed form is one more phase step. -/
theorem phaseAfter_succ (shape : Shape) (p : Phase) (k : Nat) :
    phaseAfter shape p (k + 1) = nextPhase shape (phaseAfter shape p k) := by
  apply BitVec.eq_of_toNat_eq
  unfold phaseAfter nextPhase
  have := p.isLt
  by_cases h : repeats shape <;> simp only [h, if_true, if_false, Bool.false_eq_true]
  all_goals
    split <;> rename_i hp <;> simp only [BitVec.ofNat_eq_ofNat, BitVec.toNat_ofNat, BitVec.toNat_add, Nat.reducePow] at hp ⊢ <;> omega

theorem repeats_iff (shape : Shape) : repeats shape = true ↔ shape.getLsbD 3 = true ∧ shape.getLsbD 0 = false := by
  simp [repeats, contBit, holdBit]

section Advance

variable (c : ChipState) (us : Nat)

theorem ChipState.advance_stopped (h : c.envelopePeriod = 0) : c.advance us = c := by
  simp [ChipState.advance, h]

@[simp] theorem ChipState.advance_registers : (c.advance us).registers = c.registers := by
  unfold ChipState.advance
  split <;> rfl

@[simp] theorem ChipState.advance_latch : (c.advance us).latch = c.latch := by
  unfold ChipState.advance
  split <;> rfl

@[simp] theorem ChipState.advance_syncMode : (c.advance us).syncMode = c.syncMode := by
  unfold ChipState.advance
  split <;> rfl

@[simp] theorem ChipState.advance_clockBase : (c.advance us).clockBase = c.clockBase := by
  unfold ChipState.advance
  split <;> rfl

@[simp] theorem ChipState.advance_firstChannel : (c.advance us).firstChannel = c.firstChannel := by
  unfold ChipState.advance
  split <;> rfl

@[simp] theorem ChipState.advance_envelopePeriod : (c.advance us).envelopePeriod = c.envelopePeriod := by
  unfold ChipState.advance
  split <;> rfl

theorem ChipState.advance_counter (h : c.envelopePeriod ≠ 0) :
    (c.advance us).envelopeCounter = (c.envelopeCounter + us) % c.envelopePeriod := by
  simp [ChipState.advance, h]

theorem ChipState.advance_phase (h : c.envelopePeriod ≠ 0) :
    (c.advance us).envelopePhase = phaseAfter c.shape c.envelopePhase (c.stepsDue us) := by
  simp [ChipState.advance, h]

theorem ChipState.advance_mask (h : c.envelopePeriod ≠ 0) :
    (c.advance us).changedMask = c.changedMask ||| if c.stepsDue us = 0 then 0 else c.envelopeChannels := by
  simp [ChipState.advance, h]

end Advance

end Sys2Proof.Machine
end

