-- ==== Sys2Proof/Laws/Ops.lean ====
section
/-!
SUPPORT. What the shared operations can do: the register bank, admission, the notification and the flush, the register
write.
-/

namespace Sys2Proof.Machine

/-! ### The register bank -/

theorem ChipState.reg_setReg (c : ChipState) (i j : RegIndex) (v : Byte) :
    (c.setReg i v).reg j = if i = j then v else c.reg j := by
  simp [ChipState.reg, ChipState.setReg, Vector.getElem_set, BitVec.toNat_inj]

@[simp] theorem ChipState.reg_setReg_self (c : ChipState) (i : RegIndex) (v : Byte) : (c.setReg i v).reg i = v := by
  simp [ChipState.reg_setReg]

theorem ChipState.reg_setReg_ne (c : ChipState) {i j : RegIndex} (v : Byte) (h : i ≠ j) :
    (c.setReg i v).reg j = c.reg j := by
  simp [ChipState.reg_setReg, h]

theorem registers_ext_of_reg {c d : ChipState} (h : ∀ i, c.reg i = d.reg i) : c.registers = d.registers := by
  ext i hi
  have := h (BitVec.ofNat 4 i)
  simp only [ChipState.reg, BitVec.toNat_ofNat, Nat.mod_eq_of_lt hi] at this
  rw [this]

/-! ### Admission -/

theorem State.whenIdle_idle {s : State} (h : s.notifying = false) (run : State → Host.Outcome State Fault Refusal) :
    s.whenIdle run = run s := by
  simp [State.whenIdle, h]

theorem State.whenReady_ready {s : State} (h : s.Ready) (run : State → Host.Outcome State Fault Refusal) :
    s.whenReady run = run s := by
  simp [State.whenReady, State.whenIdle, h.1, h.2]

theorem State.whenReady_notifying {s : State} (h : s.notifying = true) (run : State → Host.Outcome State Fault Refusal) :
    s.whenReady run = .refused .insideNotification := by
  simp [State.whenReady, State.whenIdle, h]

theorem State.whenReady_beforeReset {s : State} (h : s.notifying = false) (h' : s.resetDone = false)
    (run : State → Host.Outcome State Fault Refusal) : s.whenReady run = .refused .beforeReset := by
  simp [State.whenReady, State.whenIdle, h, h']

/-- An admitted operation that answers next ran in a ready state. -/
theorem State.whenReady_next {s t : State} {run : State → Host.Outcome State Fault Refusal} (h : s.whenReady run = .next t) :
    s.Ready ∧ run s = .next t := by
  unfold State.whenReady State.whenIdle at h
  split at h
  · cases h
  · dsimp only at h
    split at h
    · rename_i hn hr
      exact ⟨⟨hr, by simpa using hn⟩, h⟩
    · cases h

theorem State.whenIdle_next {s t : State} {run : State → Host.Outcome State Fault Refusal}
    (h : s.whenIdle run = .next t) : s.notifying = false ∧ run s = .next t := by
  unfold State.whenIdle at h
  split at h
  · cases h
  · rename_i hn
    exact ⟨by simpa using hn, h⟩

/-! ### Notifications and the flush -/

/-- One turn of the flush adds the channel's record if it is pending, and touches nothing else. -/
theorem State.deliver_eq {s : State} (h : s.notifying = false) (k : Fin 6) :
    s.deliver k = { s with trace := s.trace ++ if s.chip.pending k then [s.chip.record k] else [] } := by
  unfold State.deliver
  split <;> simp [State.enterNotification, State.leaveNotification, ← h]

/-- The turns over a list of channels add the records of its pending channels, in its order. -/
theorem State.deliver_foldl {s : State} (h : s.notifying = false) (ks : List (Fin 6)) :
    ks.foldl State.deliver s = { s with trace := s.trace ++ (ks.filter s.chip.pending).map s.chip.record } := by
  induction ks generalizing s with
  | nil => simp
  | cons k ks ih =>
    rw [List.foldl_cons, State.deliver_eq h,
      ih (s := { s with trace := s.trace ++ if s.chip.pending k then [s.chip.record k] else [] }) h]
    by_cases hk : s.chip.pending k <;> simp [hk]

/-- The flush emits the records of the pending channels, in ascending order, and empties the mask. -/
theorem State.flush_eq {s : State} (h : s.notifying = false) :
    s.flush = { s with chip := s.chip.clearMask, trace := s.trace ++ s.chip.pendingRecords } := by
  simp only [State.flush, State.deliver_foldl h]
  rfl

theorem State.flushIfAsync_async {s : State} (h : s.notifying = false) (hm : s.chip.syncMode = .async) :
    s.flushIfAsync = { s with chip := s.chip.clearMask, trace := s.trace ++ s.chip.pendingRecords } := by
  simp [State.flushIfAsync, hm, State.flush_eq h]

theorem State.flushIfAsync_sync {s : State} (hm : s.chip.syncMode = .sync) : s.flushIfAsync = s := by
  simp [State.flushIfAsync, hm]

@[simp] theorem ChipState.pendingRecords_empty {c : ChipState} (h : c.changedMask = 0) : c.pendingRecords = [] := by
  have : c.pending = fun _ => false := by
    funext k
    simp [ChipState.pending, h]
  simp [ChipState.pendingRecords, this]

/-! ### The register write -/

section RegWrite

variable (c : ChipState) (i j : RegIndex) (v : Byte)

theorem ChipState.regWrite_reg : (c.regWrite i v).reg j = if i = j then v else c.reg j := by
  rw [← ChipState.reg_setReg]
  unfold ChipState.regWrite ChipState.envelopeWriteEffect
  dsimp only
  split
  · rfl
  · split <;> rfl

theorem ChipState.regWrite_mask : (c.regWrite i v).changedMask = c.changedMask ||| (c.setReg i v).dirty i := by
  unfold ChipState.regWrite ChipState.envelopeWriteEffect
  dsimp only
  split
  · rfl
  · split <;> rfl

theorem ChipState.regWrite_period : (c.regWrite i v).envelopePeriod =
    if i = 11 ∨ i = 12 then envPeriodOf (c.setReg i v).envPeriodField.toNat c.clockBase else c.envelopePeriod := by
  unfold ChipState.regWrite ChipState.envelopeWriteEffect
  dsimp only
  split
  · rfl
  · split <;> rfl

theorem ChipState.regWrite_counter :
    (c.regWrite i v).envelopeCounter = if i = 13 then 0 else c.envelopeCounter := by
  unfold ChipState.regWrite ChipState.envelopeWriteEffect
  dsimp only
  split
  · rename_i h
    rcases h with rfl | rfl <;> rfl
  · split <;> rfl

theorem ChipState.regWrite_phase : (c.regWrite i v).envelopePhase = if i = 13 then 0 else c.envelopePhase := by
  unfold ChipState.regWrite ChipState.envelopeWriteEffect
  dsimp only
  split
  · rename_i h
    rcases h with rfl | rfl <;> rfl
  · split <;> rfl

@[simp] theorem ChipState.regWrite_latch : (c.regWrite i v).latch = c.latch := by
  unfold ChipState.regWrite ChipState.envelopeWriteEffect
  dsimp only
  split
  · rfl
  · split <;> rfl

@[simp] theorem ChipState.regWrite_syncMode : (c.regWrite i v).syncMode = c.syncMode := by
  unfold ChipState.regWrite ChipState.envelopeWriteEffect
  dsimp only
  split
  · rfl
  · split <;> rfl

@[simp] theorem ChipState.regWrite_clockBase : (c.regWrite i v).clockBase = c.clockBase := by
  unfold ChipState.regWrite ChipState.envelopeWriteEffect
  dsimp only
  split
  · rfl
  · split <;> rfl

@[simp] theorem ChipState.regWrite_firstChannel : (c.regWrite i v).firstChannel = c.firstChannel := by
  unfold ChipState.regWrite ChipState.envelopeWriteEffect
  dsimp only
  split
  · rfl
  · split <;> rfl

end RegWrite

end Sys2Proof.Machine
end

