-- ==== Sys2Proof/Laws/Operands.lean ====
section
/-!
SUPPORT. The register fields, the channel map and the records depend on the register bank (and on the few fields named)
alone, so an update of any other field leaves them: a proof rewrites with these and does not unfold them.
-/

namespace Sys2Proof.Machine

section Congruence

variable {c d : ChipState}

theorem ChipState.reg_congr (h : c.registers = d.registers) (i : RegIndex) : c.reg i = d.reg i := by
  simp only [ChipState.reg, h]

theorem ChipState.tonePeriod_congr (h : c.registers = d.registers) (n : Fin 3) : c.tonePeriod n = d.tonePeriod n := by
  simp only [ChipState.tonePeriod, ChipState.reg_congr h]

theorem ChipState.noisePeriod_congr (h : c.registers = d.registers) : c.noisePeriod = d.noisePeriod := by
  simp only [ChipState.noisePeriod, ChipState.reg_congr h]

theorem ChipState.enabled_congr (h : c.registers = d.registers) (k : Fin 6) : c.enabled k = d.enabled k := by
  simp only [ChipState.enabled, ChipState.reg_congr h]

theorem ChipState.usesEnvelope_congr (h : c.registers = d.registers) (n : Fin 3) :
    c.usesEnvelope n = d.usesEnvelope n := by
  simp only [ChipState.usesEnvelope, ChipState.reg_congr h]

theorem ChipState.fixedLevel_congr (h : c.registers = d.registers) (n : Fin 3) : c.fixedLevel n = d.fixedLevel n := by
  simp only [ChipState.fixedLevel, ChipState.reg_congr h]

theorem ChipState.envPeriodField_congr (h : c.registers = d.registers) : c.envPeriodField = d.envPeriodField := by
  simp only [ChipState.envPeriodField, ChipState.reg_congr h]

theorem ChipState.shape_congr (h : c.registers = d.registers) : c.shape = d.shape := by
  simp only [ChipState.shape, ChipState.reg_congr h]

theorem ChipState.envelopeChannels_congr (h : c.registers = d.registers) :
    c.envelopeChannels = d.envelopeChannels := by
  simp only [ChipState.envelopeChannels, ChipState.envelopeVoices, ChipState.usesEnvelope_congr h]

theorem ChipState.dirty_congr (h : c.registers = d.registers) (i : RegIndex) : c.dirty i = d.dirty i := by
  simp only [ChipState.dirty, ChipState.envelopeChannels_congr h]

theorem ChipState.level_congr (h : c.registers = d.registers) (hp : c.envelopePhase = d.envelopePhase) (n : Fin 3) :
    c.level n = d.level n := by
  simp only [ChipState.level, ChipState.envLevel, ChipState.usesEnvelope_congr h, ChipState.fixedLevel_congr h,
    ChipState.shape_congr h, hp]

/-- A record is of the registers, the phase, the clock base and the channel offset. -/
theorem ChipState.record_congr (h : c.registers = d.registers) (hp : c.envelopePhase = d.envelopePhase)
    (hc : c.clockBase = d.clockBase) (hf : c.firstChannel = d.firstChannel) (k : Fin 6) : c.record k = d.record k := by
  simp only [ChipState.record, ChipState.toneFreq, ChipState.noiseFreq, ChipState.tonePeriod_congr h,
    ChipState.noisePeriod_congr h, ChipState.level_congr h hp, ChipState.enabled_congr h, hc, hf]

end Congruence

/-- A logical channel is among those an envelope step marks exactly when the channel it sounds on is in envelope
mode. -/
theorem ChipState.envelopeChannels_getLsbD (c : ChipState) (k : Fin 6) :
    c.envelopeChannels.getLsbD k.val = c.usesEnvelope (soundsOn k) := by
  unfold ChipState.envelopeChannels ChipState.envelopeVoices voicesOf
  cases h0 : c.usesEnvelope 0 <;> cases h1 : c.usesEnvelope 1 <;> cases h2 : c.usesEnvelope 2 <;>
    fin_cases k <;> simp [soundsOn, h0, h1, h2]

section RegWrite

variable (c : ChipState) (i : RegIndex) (v : Byte)

/-- The register write leaves the bank of the store alone. -/
@[simp] theorem ChipState.regWrite_registers : (c.regWrite i v).registers = (c.setReg i v).registers := by
  unfold ChipState.regWrite ChipState.envelopeWriteEffect
  dsimp only
  split
  · rfl
  · split <;> rfl

end RegWrite

/-- The records of a flush, as the channels of the mask in ascending order. -/
theorem ChipState.pendingRecords_eq (c : ChipState) :
    c.pendingRecords = ((List.finRange 6).filter fun k => c.changedMask.getLsbD k.val).map c.record := by
  rw [ChipState.pendingRecords, show channelOrder = List.finRange 6 by decide]
  rfl

/-- The mixer channels of the records of a flush ascend. -/
theorem ChipState.pendingRecords_ascend (c : ChipState) :
    c.pendingRecords.Pairwise (fun a b => a.channel < b.channel) := by
  rw [ChipState.pendingRecords, List.pairwise_map]
  exact List.Pairwise.filter _ (by simp [channelOrder, ChipState.record])

/-- Each record is of one of the chip's own six mixer channels. -/
theorem ChipState.pendingRecords_channel (c : ChipState) :
    ∀ r ∈ c.pendingRecords, c.firstChannel ≤ r.channel ∧ r.channel < c.firstChannel + 6 := by
  intro r hr
  simp only [ChipState.pendingRecords, List.mem_map] at hr
  obtain ⟨k, _, rfl⟩ := hr
  have := k.isLt
  simp [ChipState.record]

end Sys2Proof.Machine
end

