-- ==== Sys2Proof/Laws/Exec.lean ====
section
/-!
SUPPORT. What one operation can do, said once: in a ready chip each operation answers the state its rule gives, and
whatever answers a next state did one of these.
-/

namespace Sys2Proof.Machine

/-! ### Each operation in a ready chip -/

section Ready

variable {s : State} (h : s.Ready)
include h

theorem execWrctrl_ready (v : Byte) :
    execWrctrl v s = .next (s.withChip (s.chip.setLatch (narrowToLatch v))) := State.whenReady_ready h _

theorem execWrdata_ready (v : Byte) :
    execWrdata v s = .next (s.withChip (s.chip.regWrite s.chip.latch v)).flushIfAsync := State.whenReady_ready h _

theorem execRddata_ready : execRddata s = .next (s.ret (s.chip.reg s.chip.latch)) := State.whenReady_ready h _

theorem execWrdirect_accepted {r : Byte} (hr : r.toNat ≤ 15) (v : Byte) :
    execWrdirect r v s =
      .next (s.withChip ((s.chip.setLatch (narrowToLatch r)).regWrite (narrowToLatch r) v)).flushIfAsync := by
  simp [execWrdirect, State.whenReady_ready h, directAccepted, hr]

theorem execWrdirect_rejected {r : Byte} (hr : 15 < r.toNat) (v : Byte) : execWrdirect r v s = .next s := by
  simp [execWrdirect, State.whenReady_ready h, directAccepted, show ¬ r.toNat ≤ 15 by omega]

theorem execSetsyncAsync_ready : execSetsyncAsync s = .next (s.setModeAndFlush .async) := State.whenReady_ready h _

theorem execSetsyncSync_ready : execSetsyncSync s = .next (s.setModeAndFlush .sync) := State.whenReady_ready h _

theorem execSetsyncFlush_ready : execSetsyncFlush s = .next s.flush := State.whenReady_ready h _

theorem execAdvance_stopped (hp : s.chip.envelopePeriod = 0) (us : Nat) : execAdvance us s = .next s := by
  simp [execAdvance, State.whenReady_ready h, hp]

theorem execAdvance_running (hp : s.chip.envelopePeriod ≠ 0) (us : Nat) :
    execAdvance us s = .next (s.withChip (s.chip.advance us)).flushIfAsync := by
  simp [execAdvance, State.whenReady_ready h, hp]

end Ready

theorem execReset_idle {s : State} (h : s.notifying = false) (clockHz first : Nat) :
    execReset clockHz first s = .next { s with chip := chipAfterReset clockHz first, resetDone := true } :=
  State.whenIdle_idle h _

/-- What a WRDATA, an accepted WRDIRECT or an ADVANCE leaves of the chip it has updated: the chip, its mask emptied and
its records emitted in Async mode. -/
theorem State.flushIfAsync_cases {s : State} (h : s.notifying = false) :
    (s.chip.syncMode = .sync ∧ s.flushIfAsync = s) ∨
    (s.chip.syncMode = .async ∧
      s.flushIfAsync = { s with chip := s.chip.clearMask, trace := s.trace ++ s.chip.pendingRecords }) := by
  cases hm : s.chip.syncMode
  · exact .inr ⟨rfl, State.flushIfAsync_async h hm⟩
  · exact .inl ⟨rfl, State.flushIfAsync_sync hm⟩

/-! ### Inversion -/

/-- Whatever answers a next state was issued in a ready chip, or was a RESET outside a notification. -/
theorem ready_of_exec_next {i : Instr} {s t : State} (h : exec i s = .next t) :
    s.Ready ∨ (s.notifying = false ∧ ∃ clockHz first, i = .reset clockHz first) := by
  cases i with
  | reset clockHz first =>
    simp only [exec, execReset] at h
    exact .inr ⟨(State.whenIdle_next h).1, clockHz, first, rfl⟩
  | _ =>
    simp only [exec, execWrctrl, execWrdata, execRddata, execWrdirect, execSetsyncAsync, execSetsyncSync,
      execSetsyncFlush, execAdvance] at h
    exact .inl (State.whenReady_next h).1

/-- Every operation that answers a next state did one of these. -/
theorem exec_next_cases {i : Instr} {s t : State} (h : exec i s = .next t) :
    (∃ clockHz first, i = .reset clockHz first ∧ s.notifying = false ∧
      t = { s with chip := chipAfterReset clockHz first, resetDone := true }) ∨
    (s.Ready ∧
      ((∃ v, i = .wrctrl v ∧ t = s.withChip (s.chip.setLatch (narrowToLatch v))) ∨
       (∃ v, i = .wrdata v ∧ t = (s.withChip (s.chip.regWrite s.chip.latch v)).flushIfAsync) ∨
       (i = .rddata ∧ t = s.ret (s.chip.reg s.chip.latch)) ∨
       (∃ r v, i = .wrdirect r v ∧ r.toNat ≤ 15 ∧
         t = (s.withChip ((s.chip.setLatch (narrowToLatch r)).regWrite (narrowToLatch r) v)).flushIfAsync) ∨
       (∃ r v, i = .wrdirect r v ∧ 15 < r.toNat ∧ t = s) ∨
       (i = .setsyncAsync ∧ t = s.setModeAndFlush .async) ∨
       (i = .setsyncSync ∧ t = s.setModeAndFlush .sync) ∨
       (i = .setsyncFlush ∧ t = s.flush) ∨
       (∃ us, i = .advance us ∧ s.chip.envelopePeriod = 0 ∧ t = s) ∨
       (∃ us, i = .advance us ∧ s.chip.envelopePeriod ≠ 0 ∧
         t = (s.withChip (s.chip.advance us)).flushIfAsync))) := by
  obtain hr | ⟨hn, clockHz, first, rfl⟩ := ready_of_exec_next h
  · cases i with
    | reset clockHz first =>
      rw [exec, execReset_idle hr.2] at h
      exact .inl ⟨clockHz, first, rfl, hr.2, (Host.Outcome.next.inj h).symm⟩
    | wrctrl v =>
      rw [exec, execWrctrl_ready hr] at h
      simp [hr, (Host.Outcome.next.inj h).symm]
    | wrdata v =>
      rw [exec, execWrdata_ready hr] at h
      simp [hr, (Host.Outcome.next.inj h).symm]
    | rddata =>
      rw [exec, execRddata_ready hr] at h
      simp [hr, (Host.Outcome.next.inj h).symm]
    | wrdirect r v =>
      by_cases hle : r.toNat ≤ 15
      · rw [exec, execWrdirect_accepted hr hle] at h
        simp [hr, (Host.Outcome.next.inj h).symm, hle]
      · rw [exec, execWrdirect_rejected hr (by omega)] at h
        simp [hr, (Host.Outcome.next.inj h).symm, show 15 < r.toNat by omega]
    | setsyncAsync =>
      rw [exec, execSetsyncAsync_ready hr] at h
      simp [hr, (Host.Outcome.next.inj h).symm]
    | setsyncSync =>
      rw [exec, execSetsyncSync_ready hr] at h
      simp [hr, (Host.Outcome.next.inj h).symm]
    | setsyncFlush =>
      rw [exec, execSetsyncFlush_ready hr] at h
      simp [hr, (Host.Outcome.next.inj h).symm]
    | advance us =>
      by_cases hp : s.chip.envelopePeriod = 0
      · rw [exec, execAdvance_stopped hr hp] at h
        simp [hr, (Host.Outcome.next.inj h).symm, hp]
      · rw [exec, execAdvance_running hr hp] at h
        simp [hr, (Host.Outcome.next.inj h).symm, hp]
  · rw [exec, execReset_idle hn] at h
    exact .inl ⟨clockHz, first, rfl, hn, (Host.Outcome.next.inj h).symm⟩

end Sys2Proof.Machine
end

