-- ==== Sys2Proof/Laws/PerInstr.lean ====
section
/-!
SUPPORT. Statements for all operations, made per operation. `OpField`: the word of an operation carries the operation
code of 30_encoding.md rule R65, whatever the operands, also those the encoded form cuts short.
-/

namespace Sys2Proof.Laws

/-- The operation codes of rule R65. -/
def opcodeOf : Instr → Nat
  | .wrctrl _ => 0
  | .wrdata _ => 1
  | .rddata => 2
  | .wrdirect _ _ => 3
  | .setsyncAsync => 4
  | .setsyncSync => 4
  | .setsyncFlush => 4
  | .advance _ => 5
  | .reset _ _ => 6

/-- The top three bits of a word given by its top part and the rest. -/
theorem opField_append (op : BitVec 3) (rest : BitVec 61) : opField (op ++ rest) = op.toNat := by
  have hr := rest.isLt
  have ho := op.isLt
  show ((op ++ rest : BitVec (3 + 61)).toNat >>> 61) % 2 ^ 3 = op.toNat
  rw [BitVec.toNat_append, ← Nat.shiftLeft_add_eq_or_of_lt hr, Nat.shiftLeft_eq, Nat.shiftRight_eq_div_pow]
  omega

namespace OpField

/-- The operation code of the encoded word. -/
def Statement (i : Instr) : Prop := opField (encode i) = opcodeOf i

theorem wrctrl (v : Byte) : Statement (.wrctrl v) := by
  show opField (0#3 ++ 0#53 ++ v) = 0
  rw [BitVec.append_assoc]
  exact opField_append 0#3 (0#53 ++ v)

theorem wrdata (v : Byte) : Statement (.wrdata v) := by
  show opField (1#3 ++ 0#53 ++ v) = 1
  rw [BitVec.append_assoc]
  exact opField_append 1#3 (0#53 ++ v)

theorem rddata : Statement .rddata := opField_append 2#3 0#61

theorem wrdirect (r v : Byte) : Statement (.wrdirect r v) := by
  show opField (3#3 ++ 0#45 ++ r ++ v) = 3
  rw [BitVec.append_assoc, BitVec.append_assoc]
  exact opField_append 3#3 (0#45 ++ (r ++ v))

theorem setsyncAsync : Statement .setsyncAsync := opField_append 4#3 (0#59 ++ 0#2)

theorem setsyncSync : Statement .setsyncSync := opField_append 4#3 (0#59 ++ 1#2)

theorem setsyncFlush : Statement .setsyncFlush := opField_append 4#3 (0#59 ++ 2#2)

theorem advance (us : Nat) : Statement (.advance us) := by
  show opField (5#3 ++ 0#29 ++ BitVec.ofNat 32 us) = 5
  rw [BitVec.append_assoc]
  exact opField_append 5#3 (0#29 ++ BitVec.ofNat 32 us)

theorem reset (clockHz first : Nat) : Statement (.reset clockHz first) := by
  show opField (6#3 ++ BitVec.ofNat 29 first ++ BitVec.ofNat 32 clockHz) = 6
  rw [BitVec.append_assoc]
  exact opField_append 6#3 (BitVec.ofNat 29 first ++ BitVec.ofNat 32 clockHz)

end OpField

end Sys2Proof.Laws
end

