-- ==== Sys2Proof/Tests/Slice0.lean ====
section
/-!
SUPPORT. Tests. Every expected value is of the spec's text: 95_test_vectors.md (T1 to T10, P1 to P5), the examples of the
rules named, or the bit strings of 30_encoding.md rule R62 written out by hand.
-/

namespace Sys2Proof.Tests

open Sys2Proof.Machine

/-! ### Helpers -/

/-- The chip of the vectors' start, RESET 2000000, 0, with some registers written over. -/
def chipWith (regs : List (RegIndex × Byte)) : ChipState :=
  regs.foldl (fun c r => c.setReg r.1 r.2) State.reset.chip

/-- That chip in Sync mode with channels pending. -/
def syncChip (regs : List (RegIndex × Byte)) (mask : ChannelSet) : ChipState := ((chipWith regs).setMode .sync).mark mask

/-- A ready state of a chip. -/
def ready (c : ChipState) : State := State.reset.withChip c

/-- A state before the first RESET. -/
def unreset : State := State.beforeFirstReset (chipWith [(3, 0x5A)])

/-- The outcome is a next state that satisfies `p`. -/
def nextIs (o : Host.Outcome State Fault Refusal) (p : State → Bool) : Bool :=
  match o with
  | .next t => p t
  | .fault r => nomatch r
  | .refused _ => false

/-- The outcome is that refusal. -/
def refusedAs (o : Host.Outcome State Fault Refusal) (r : Refusal) : Bool :=
  match o with
  | .next _ => false
  | .fault r => nomatch r
  | .refused r' => r' == r

theorem ready_is_ready (c : ChipState) : (ready c).Ready := ⟨rfl, rfl⟩

/-! ### WellFormed: each check refuses an ill-formed term (rule R63) -/

theorem test_wellFormed_advance_33_bits : (Instr.advance (2 ^ 32)).wellFormed = false := by decide
theorem test_wellFormed_reset_clock_33_bits : (Instr.reset (2 ^ 32) 0).wellFormed = false := by decide
theorem test_wellFormed_reset_first_30_bits : (Instr.reset 0 (2 ^ 29)).wellFormed = false := by decide

/-! ### Decoding: one word of each operation, bit by bit from rule R62 -/

theorem test_decode_wrctrl :
    decode 0b0000000000000000000000000000000000000000000000000000000000011111#64 = .ok (.wrctrl 0x1F) := by decide
theorem test_decode_wrdata :
    decode 0b0010000000000000000000000000000000000000000000000000000011111110#64 = .ok (.wrdata 0xFE) := by decide
theorem test_decode_rddata :
    decode 0b0100000000000000000000000000000000000000000000000000000000000000#64 = .ok .rddata := by decide
theorem test_decode_wrdirect :
    decode 0b0110000000000000000000000000000000000000000000000000110100001110#64 = .ok (.wrdirect 13 14) := by decide
theorem test_decode_setsync_async :
    decode 0b1000000000000000000000000000000000000000000000000000000000000000#64 = .ok .setsyncAsync := by decide
theorem test_decode_setsync_sync :
    decode 0b1000000000000000000000000000000000000000000000000000000000000001#64 = .ok .setsyncSync := by decide
theorem test_decode_setsync_flush :
    decode 0b1000000000000000000000000000000000000000000000000000000000000010#64 = .ok .setsyncFlush := by decide
theorem test_decode_advance :
    decode 0b1010000000000000000000000000000000000000000000000000001111101000#64 = .ok (.advance 1000) := by decide
theorem test_decode_reset :
    decode 0b1100000000000000000000000000011000000000000110110100111101001100#64 = .ok (.reset 1789772 6) := by decide
theorem test_decode_reserved_op : decode 0xE000000000000000#64 = .error .reservedOp := by decide
theorem test_decode_reserved_mode : decode 0x8000000000000003#64 = .error .reservedMode := by decide
theorem test_decode_must_be_zero : decode 0x0000000000000100#64 = .error .mustBeZero := by decide
theorem test_decode_table_word : decodeTableWord 64 0x6000000000001055 = some (.wrdirect 16 0x55) := by decide

/-- Every row of the opcode table decodes, with its operand bits zero, to an operation of its mnemonic. -/
theorem test_rows_decode : opcodeTable.all (fun row =>
    ((decodeTableWord 64 row.pattern.toNat).map Instr.mnemonic) == some row.mnemonic) = true := by decide

/-- No two rows of the opcode table share a word. -/
theorem test_rows_disjoint : opcodeTable.Pairwise (fun a b => a.pattern &&& b.mask ≠ b.pattern &&& a.mask) := by decide

/-! ### The operations -/

/-- T1: only the low 4 bits. -/
theorem test_wrctrl : nextIs (exec (.wrctrl 0xA7) (ready (chipWith []))) (fun t => t.chip.latch = 7 && t.trace.isEmpty) = true := by
  decide
/-- T2.4: R11 recomputes the period and keeps counter and phase. -/
theorem test_wrdata_period :
    nextIs (exec (.wrdata 0x40) (ready (((chipWith []).setLatch 11).setTimer 3 5)))
      (fun t => t.chip.envelopePeriod = 512 && t.chip.envelopeCounter = 3 && t.chip.envelopePhase = 5) = true := by decide
/-- R81's example. -/
theorem test_wrdata_async : nextIs (exec (.wrdata 0xFE) (ready (chipWith [])))
    (fun t => t.trace = [⟨0, 492, 0, true⟩] && t.chip.changedMask = 0 && t.chip.reg 0 = 0xFE) = true := by decide
/-- T3.3: no change above 15. -/
theorem test_wrdirect_rejected :
    nextIs (exec (.wrdirect 16 0x55) (ready ((chipWith []).setLatch 3))) (fun t => t = ready ((chipWith []).setLatch 3)) = true := by
  decide
/-- T8.5: a disabled channel is notified like any other. -/
theorem test_wrdirect_enables : nextIs (exec (.wrdirect 7 1) (ready (chipWith [])))
    (fun t => t.trace = [⟨0, 125000, 0, false⟩, ⟨1, 125000, 0, true⟩, ⟨2, 125000, 0, true⟩, ⟨3, 125000, 0, true⟩,
      ⟨4, 125000, 0, true⟩, ⟨5, 125000, 0, true⟩]) = true := by decide
/-- T4.2: the whole byte. -/
theorem test_rddata : nextIs (exec .rddata (ready ((chipWith [(1, 0xF3)]).setLatch 1))) (fun t => t.returned = [0xF3]) = true := by
  decide
/-- T8.2. -/
theorem test_setsync_async : nextIs (exec .setsyncAsync (ready (syncChip [(8, 6)] 0b001001)))
    (fun t => t.trace = [⟨0, 125000, 6, true⟩, ⟨3, 125000, 6, true⟩] && t.chip.syncMode = .async && t.chip.changedMask = 0) = true := by
  decide
/-- T8.3. -/
theorem test_setsync_sync :
    nextIs (exec .setsyncSync (ready (chipWith []))) (fun t => t.trace.isEmpty && t.chip.syncMode = .sync) = true := by decide
/-- T8.7: the values at the flush. -/
theorem test_setsync_flush : nextIs (exec .setsyncFlush (ready (syncChip [(0, 0xFE), (1, 3)] 0b000001)))
    (fun t => t.trace = [⟨0, 122, 0, true⟩] && t.chip.syncMode = .sync) = true := by decide
/-- T7.3: two steps, one flush. -/
theorem test_advance : nextIs (exec (.advance 20) (ready (chipWith [(8, 0x10), (13, 8)])))
    (fun t => t.chip.envelopePhase = 2 && t.chip.envelopeCounter = 4 &&
      t.trace = [⟨0, 125000, 13, true⟩, ⟨3, 125000, 13, true⟩]) = true := by decide
/-- T7.4: the overdue steps of a shortened period are taken by ADVANCE 0. -/
theorem test_advance_overdue : nextIs (exec (.advance 0) (ready (((chipWith [(11, 2)]).setPeriod 16).setTimer 2000 0)))
    (fun t => t.chip.envelopePhase = 31 && t.chip.envelopeCounter = 0) = true := by decide
/-- T9.2. -/
theorem test_reset : nextIs (exec (.reset 1789772 6) (ready (syncChip [] 0b001001)))
    (fun t => t.chip.clockBase = 111860 && t.chip.firstChannel = 6 && t.chip.envelopePeriod = 8 && t.trace.isEmpty &&
      t.chip.changedMask = 0 && t.chip.syncMode = .async) = true := by decide
/-- T9.3: clockHz below 16 stops the envelope. -/
theorem test_reset_stopped : nextIs (exec (.reset 15 0) (ready (chipWith [])))
    (fun t => t.chip.clockBase = 0 && t.chip.envelopePeriod = 0) = true := by decide

/-! ### Derived values -/

/-- T2: the channel map, R9 in envelope mode. -/
theorem test_dirty : ([0, 1, 2, 3, 4, 5, 6, 7, 8, 9, 10, 11, 12, 13, 14, 15].map (chipWith [(9, 0x10)]).dirty) =
    [0b000001, 0b000001, 0b000010, 0b000010, 0b000100, 0b000100, 0b111000, 0b111111, 0b001001, 0b010010, 0b100100, 0, 0,
      0b010010, 0, 0] := by decide
/-- T5. -/
theorem test_toneFreq : ([(0x00, 0x00), (0x01, 0x00), (0xFE, 0x00), (0x00, 0x03), (0xFF, 0xFF), (0x00, 0x10), (0x55, 0x00)].map
    fun r => (chipWith [(2, r.1), (3, r.2)]).toneFreq 1) = [125000, 125000, 492, 162, 30, 125000, 1470] := by decide
/-- T6. -/
theorem test_noiseFreq : ([0x00, 0x01, 0x05, 0x1F, 0xE5].map fun r => (chipWith [(6, r)]).noiseFreq) =
    [125000, 125000, 25000, 4032, 25000] := by decide
/-- T6, the auxiliary generator. -/
theorem test_noiseStep : noiseStep 0x00001 = 0x10000 ∧ noiseStep 0x10000 = 0x08000 ∧ noiseStep 0x00009 = 0x00004 ∧
    noiseOut 0x00001 = true := by decide
/-- R134. -/
theorem test_envPeriodOf : ([0, 1, 2, 16, 256, 4096, 65535].map (envPeriodOf · 125000)) = [8, 8, 16, 128, 2048, 32768, 524280] ∧
    ([1, 2, 16, 256, 4096, 65535].map (envPeriodOf · 111860)) = [8, 17, 143, 2288, 36617, 585866] ∧
    envPeriodOf 1 2000000 = 1 ∧ envPeriodOf 1 0 = 0 := by decide

/-- The falling and the rising pass of R124's rows. -/
def falling : List Level := [15, 14, 13, 12, 11, 10, 9, 8, 7, 6, 5, 4, 3, 2, 1, 0]
def rising : List Level := [0, 1, 2, 3, 4, 5, 6, 7, 8, 9, 10, 11, 12, 13, 14, 15]

/-- R124's rows, shape 0 to 15. -/
def envRows : List (List Level) :=
  let zeros := List.replicate 16 0
  let full := List.replicate 16 15
  List.replicate 4 (falling ++ zeros) ++ List.replicate 4 (rising ++ zeros) ++
    [falling ++ falling, falling ++ zeros, falling ++ rising, falling ++ full] ++
    [rising ++ rising, rising ++ full, rising ++ falling, rising ++ zeros]

theorem test_envTable : ((List.range 16).map fun shape => (List.range 32).map fun p =>
    envTable (BitVec.ofNat 4 shape) (BitVec.ofNat 5 p)) = envRows := by decide
/-- T7: phase 31 holds or wraps. -/
theorem test_nextPhase : ((List.range 16).map fun shape => nextPhase (BitVec.ofNat 4 shape) 31) =
    [31, 31, 31, 31, 31, 31, 31, 31, 0, 31, 0, 31, 0, 31, 0, 31] := by decide

/-! ### The step -/

theorem test_step_runs_every_row : opcodeTable.all (fun row =>
    nextIs (step (State.reset.withFetchWord 64 row.pattern.toNat)) (fun _ => true)) = true := by decide
/-- The abstract form takes operands the word cannot hold (R63). -/
theorem test_step_call : nextIs (step ((ready (chipWith [])).withStream [.call (.reset (2 ^ 40) (2 ^ 30))]))
    (fun t => t.chip.clockBase = 2 ^ 36 && t.chip.firstChannel = 2 ^ 30 && t.stream.isEmpty) = true := by decide
theorem test_step_idle : nextIs (step State.reset) (fun t => t = State.reset) = true := by decide
theorem test_step_reserved :
    refusedAs (step (State.reset.withFetchWord 64 0xE000000000000000)) (.undecodable .reservedOp) = true := by decide
/-- T9.5. -/
theorem test_beforeReset : refusedAs (exec .rddata unreset) .beforeReset = true := by decide
/-- R176, RESET too. -/
theorem test_insideNotification :
    refusedAs (exec (.reset 2000000 0) ((ready (syncChip [] 0b001001)).atCallback 3)) .insideNotification = true := by decide

/-! ### The assembler (R68, R69; words of P1 and P2) -/

theorem test_assemble : assemble ["reset    1789772, 6      ; first".toList, "  ; nothing".toList, "SetSync sync".toList,
    "wrdirect 7, 0x3E".toList, "advance 1000".toList, "wrreg 9,0x10".toList, "rdreg 13".toList, "flush".toList] =
    .ok [.reset 1789772 6, .setsyncSync, .wrdirect 7 0x3E, .advance 1000, .wrctrl 9, .wrdata 0x10, .wrctrl 13, .rddata,
      .setsyncFlush] := by decide
theorem test_assemble_refusals : assembleLine "wrreg 16, 0".toList = .error .wrregAbove15 ∧
    assembleLine "wrdata 256".toList = .error .operandRange ∧ assembleLine "rdreg 16".toList = .error .operandRange ∧
    assembleLine "setsync off".toList = .error .badLine ∧ assembleLine "wrctrl 1 2".toList = .error .badLine := by decide
theorem test_issue : ((State.reset.issue [.rddata, .setsyncFlush]).stream) = [.call .rddata, .call .setsyncFlush] := by decide

/-! ### Hypotheses that can be met, clause by clause -/

theorem witness_DecodeOfEncode : (Instr.reset (2 ^ 32 - 1) (2 ^ 29 - 1)).wellFormed = true ∧
    (Instr.advance (2 ^ 32 - 1)).wellFormed = true := by decide
theorem witness_EncodeOfDecode : decode 0xDFFFFFFFFFFFFFFF#64 = .ok (.reset (2 ^ 32 - 1) (2 ^ 29 - 1)) := by decide
theorem witness_DecoderAgreesWithTheOpcodeTable : decode 0xA0000000FFFFFFFF#64 = .ok (.advance (2 ^ 32 - 1)) ∧
    decode 0xA000000100000000#64 = .error .mustBeZero := by decide
theorem witness_RefusedWords (t : Transaction) : (State.reset.withStream [.word t]).stream = .word t :: [] ∧
    (0xFFFFFFFFFFFFFFFF#64).extractLsb' 61 3 = 7 ∧
    ((0x8000000000000003#64).extractLsb' 2 59 = 0 ∧ (0x8000000000000003#64).extractLsb' 0 2 = 3) ∧
    (0x3FFFFFFFFFFFFF00#64).extractLsb' 8 53 ≠ 0 ∧ (0x4000000000000001#64).extractLsb' 0 61 ≠ 0 ∧
    (0x6000000000010000#64).extractLsb' 16 45 ≠ 0 ∧ (0x8000000000000004#64).extractLsb' 2 59 ≠ 0 ∧
    (0xA000000100000000#64).extractLsb' 32 29 ≠ 0 ∧ decode 0xC000000000000000#64 = .ok (.reset 0 0) :=
  ⟨rfl, by decide⟩
theorem witness_StepRunsTheNextOperation :
    (State.reset.withStream [.word 0x4000000000000000#64]).stream = .word 0x4000000000000000#64 :: [] ∧
    decode 0x4000000000000000#64 = .ok .rddata ∧
    (State.reset.withStream [.call .rddata, .call .rddata]).stream = .call .rddata :: [.call .rddata] ∧
    (State.reset.withStream [.word 0xE000000000000000#64]).stream = .word 0xE000000000000000#64 :: [] ∧
    decode 0xE000000000000000#64 = .error .reservedOp ∧ State.reset.stream = [] := by decide
theorem witness_IssuedTableWord : decodeTableWord 64 0xC0000000001E8480 = some (.reset 2000000 0) := by decide
/-- A ready state in Async mode, and one in Sync mode with a channel pending, for every latch: the premises of the
statements of the register writes, of the marks and of SETSYNC. -/
theorem witness_Ready_async (latch : RegIndex) : (ready ((chipWith []).setLatch latch)).Ready ∧
    (ready ((chipWith []).setLatch latch)).chip.syncMode = .async := ⟨⟨rfl, rfl⟩, rfl⟩
theorem witness_Ready_sync (latch : RegIndex) : (ready ((syncChip [] 1).setLatch latch)).Ready ∧
    (ready ((syncChip [] 1).setLatch latch)).chip.syncMode = .sync := ⟨⟨rfl, rfl⟩, rfl⟩
theorem witness_WrctrlLatches : State.reset.Ready ∧ (0x1F : Byte).toNat % 16 = (0x0F : Byte).toNat % 16 :=
  ⟨⟨rfl, rfl⟩, by decide⟩
theorem witness_EveryOperand : State.reset.Ready ∧ 15 < (16 : Byte).toNat := ⟨⟨rfl, rfl⟩, by decide⟩
theorem witness_OnlyReset : unreset.resetDone = false ∧ unreset.notifying = false := ⟨rfl, rfl⟩
theorem witness_InsideNotification : (ready (syncChip [] 0b100001)).Ready ∧
    (ready (syncChip [] 0b100001)).chip.changedMask.getLsbD 0 = true ∧
    (ready (syncChip [] 0b100001)).chip.changedMask.getLsbD 5 = true := ⟨⟨rfl, rfl⟩, by decide⟩
theorem witness_RddataAfterReset :
    nextIs (exec (.reset 0 0) State.reset) (fun t => nextIs (exec .rddata t) fun _ => true) = true := by decide
theorem witness_WrdirectIsThePortPair : State.reset.Ready ∧ (15 : Byte).toNat ≤ 15 ∧ 15 < (16 : Byte).toNat :=
  ⟨⟨rfl, rfl⟩, by decide⟩
theorem witness_TonePeriod : (chipWith [(4, 1), (5, 0x10)]).tonePeriod 2 = 1 ∧ (chipWith []).tonePeriod 2 = 0 := by decide
theorem witness_FlushCarries : (ready (syncChip [] 0b100000)).Ready ∧
    (ready (syncChip [] 0b100000)).chip.changedMask = BitVec.twoPow 6 (5 : Fin 6).val ∧
    (ready (syncChip [] 0b000001)).chip.changedMask = BitVec.twoPow 6 (0 : Fin 6).val := ⟨⟨rfl, rfl⟩, by decide⟩
theorem witness_Noise : (1 : NoiseState) ≠ 0 ∧ 0 < 131070 ∧ 131070 < 131071 := by decide
theorem witness_Advance : (ready (chipWith [])).Ready ∧ (ready (chipWith [])).chip.envelopePeriod ≠ 0 ∧
    (ready ((chipWith []).setPeriod 0)).Ready ∧ (ready ((chipWith []).setPeriod 0)).chip.envelopePeriod = 0 :=
  ⟨⟨rfl, rfl⟩, by decide, ⟨rfl, rfl⟩, rfl⟩
theorem witness_AdvanceModes : (ready (syncChip [(8, 0x10)] 0)).chip.envelopePeriod ≠ 0 ∧
    (ready (syncChip [(8, 0x10)] 0)).chip.syncMode = .sync ∧ (ready (chipWith [(8, 0x10)])).chip.syncMode = .async := by decide
theorem witness_OneShotDecay : (ready (chipWith [])).Ready ∧ (ready (chipWith [])).chip.envelopePeriod ≠ 0 ∧
    (0xF3 : Byte).toNat % 16 < 4 := ⟨⟨rfl, rfl⟩, by decide⟩
theorem witness_HeldEnvelope : (ready ((chipWith [(13, 9)]).setTimer 0 31)).Ready ∧
    (ready ((chipWith [(13, 9)]).setTimer 0 31)).chip.envelopePhase = 31 ∧
    ((ready ((chipWith [(13, 9)]).setTimer 0 31)).chip.reg 13).getLsbD 0 = true ∧
    ((ready ((chipWith [(13, 0)]).setTimer 0 31)).chip.reg 13).getLsbD 3 = false := ⟨⟨rfl, rfl⟩, by decide⟩
theorem witness_SyncModeIsSilent : (ready (syncChip [] 1)).Ready ∧ (ready (syncChip [] 1)).chip.syncMode = .sync ∧
    ∀ i ∈ [Instr.wrctrl 8, .wrdata 5, .wrdirect 13 0, .rddata, .advance 100],
      i.mnemonic ∈ ["WRCTRL", "WRDATA", "WRDIRECT", "RDDATA", "ADVANCE"] := ⟨⟨rfl, rfl⟩, rfl, by decide⟩
/-- One operation of each kind answers a next state and changes what it writes. -/
theorem witness_Writers : nextIs (exec (.wrctrl 5) State.reset) (fun t => t.chip.latch ≠ State.reset.chip.latch) = true ∧
    nextIs (exec .setsyncSync State.reset) (fun t => t.chip.syncMode ≠ State.reset.chip.syncMode) = true ∧
    nextIs (exec (.reset 0 1) State.reset) (fun t => t.chip.clockBase ≠ State.reset.chip.clockBase) = true ∧
    nextIs (exec .rddata State.reset) (fun t => t.returned ≠ State.reset.returned) = true ∧
    nextIs (exec (.wrdirect 15 1) State.reset) (fun t => t.chip.reg 15 ≠ State.reset.chip.reg 15) = true ∧
    nextIs (exec (.advance 8) State.reset) (fun t => t.chip.envelopePhase ≠ State.reset.chip.envelopePhase) = true ∧
    nextIs (exec (.wrdirect 12 1) State.reset) (fun t => t.chip.envelopePeriod ≠ State.reset.chip.envelopePeriod) = true := by
  decide
/-- The invariant holds, and the step has a next state, in a chip that is not the reset one. -/
theorem witness_Inv : (ready (syncChip [(8, 0x10)] 0b001001)).Inv ∧
    nextIs (step ((ready (syncChip [(8, 0x10)] 0b001001)).withStream [.call (.advance 9)])) (fun _ => true) = true :=
  ⟨⟨rfl, fun _ => ⟨by decide, by decide, by decide⟩⟩, by decide⟩
theorem witness_Pseudo : (15 : Byte).toNat ≤ 15 ∧ 15 < (255 : Byte).toNat ∧ (ready (chipWith [])).Ready :=
  ⟨by decide, by decide, rfl, rfl⟩
/-- R181: the second chip is notified on its own channels, and the first is left alone. -/
theorem witness_Rig : (match Rig.exec ⟨[State.reset, ready { chipWith [] with firstChannel := 6 }], []⟩ ⟨1, by decide⟩ (.wrdirect 0 1) with
    | .next r => r.mixer == [⟨6, 125000, 0, true⟩] && r.chips[0]? == some State.reset
    | _ => false) = true := by decide

end Sys2Proof.Tests
end

section
/-!
SUPPORT and O16: the register bank reads back what was written (10_state.md rule R22).
Both paths of a register write lead to one state, `State.registerWritten`; the read-back is proved of that state.
-/

namespace Sys2Proof.Machine

/-- One operation that completes leaves the rest of a straight line to run from its state. -/
theorem execAll_cons_next {i : Instr} {s t : State} (h : exec i s = .next t) (rest : List Instr) :
    execAll (i :: rest) s = execAll rest t := by
  simp only [execAll, h]

@[simp] theorem narrowToLatch_setWidth (r : RegIndex) : narrowToLatch (r.setWidth 8) = r := by
  simp [narrowToLatch]

theorem State.Ready.withChip {s : State} (h : s.Ready) (c : ChipState) : (s.withChip c).Ready := h

/-! #### What the flush at the end of a write leaves -/

section FlushIfAsync

variable {s : State} (h : s.notifying = false)
include h

theorem State.flushIfAsync_latch : s.flushIfAsync.chip.latch = s.chip.latch := by
  obtain ⟨-, hs⟩ | ⟨-, hs⟩ := State.flushIfAsync_cases h <;> simp [hs]

theorem State.flushIfAsync_reg (j : RegIndex) : s.flushIfAsync.chip.reg j = s.chip.reg j := by
  obtain ⟨-, hs⟩ | ⟨-, hs⟩ := State.flushIfAsync_cases h <;> simp [hs]

theorem State.flushIfAsync_returned : s.flushIfAsync.returned = s.returned := by
  obtain ⟨-, hs⟩ | ⟨-, hs⟩ := State.flushIfAsync_cases h <;> simp [hs]

end FlushIfAsync

theorem State.Ready.flushIfAsync {s : State} (h : s.Ready) : s.flushIfAsync.Ready := by
  obtain ⟨-, hs⟩ | ⟨-, hs⟩ := State.flushIfAsync_cases h.2
  · rwa [hs]
  · rw [hs]; exact h

/-! #### The state a register write leads to -/

/-- The state after register `r` has been selected and `v` written to it, its flush included. -/
def State.registerWritten (s : State) (r : RegIndex) (v : Byte) : State :=
  (s.withChip ((s.chip.setLatch r).regWrite r v)).flushIfAsync

/-- WRCTRL and WRDATA lead there (rules R80 and R81). -/
theorem execAll_wrctrl_wrdata {s : State} (h : s.Ready) (r : RegIndex) (v : Byte) (rest : List Instr) :
    execAll (.wrctrl (r.setWidth 8) :: .wrdata v :: rest) s = execAll rest (s.registerWritten r v) := by
  have hselect : exec (.wrctrl (r.setWidth 8)) s = .next (s.withChip (s.chip.setLatch r)) := by
    rw [exec, execWrctrl_ready h, narrowToLatch_setWidth]
  have hwrite : exec (.wrdata v) (s.withChip (s.chip.setLatch r)) = .next (s.registerWritten r v) :=
    execWrdata_ready (h.withChip _) v
  rw [execAll_cons_next hselect, execAll_cons_next hwrite]

/-- So does WRDIRECT (rule R84): an index of 4 bits is always accepted. -/
theorem execAll_wrdirect {s : State} (h : s.Ready) (r : RegIndex) (v : Byte) (rest : List Instr) :
    execAll (.wrdirect (r.setWidth 8) v :: rest) s = execAll rest (s.registerWritten r v) := by
  have haccepted : (r.setWidth 8).toNat ≤ 15 := by
    have := r.isLt
    rw [BitVec.toNat_setWidth]
    omega
  have hwrite : exec (.wrdirect (r.setWidth 8) v) s = .next (s.registerWritten r v) := by
    rw [exec, execWrdirect_accepted h haccepted, narrowToLatch_setWidth]
    rfl
  exact execAll_cons_next hwrite rest

section RegisterWritten

variable {s : State} (h : s.Ready) (r : RegIndex) (v : Byte)
include h

theorem State.registerWritten_ready : (s.registerWritten r v).Ready := (h.withChip _).flushIfAsync

theorem State.registerWritten_latch : (s.registerWritten r v).chip.latch = r := by
  simp [State.registerWritten, State.flushIfAsync_latch (h.withChip _).2]

theorem State.registerWritten_reg (j : RegIndex) :
    (s.registerWritten r v).chip.reg j = if r = j then v else s.chip.reg j := by
  simp [State.registerWritten, State.flushIfAsync_reg (h.withChip _).2, ChipState.regWrite_reg]

theorem State.registerWritten_returned : (s.registerWritten r v).returned = s.returned :=
  State.flushIfAsync_returned (h.withChip _).2

/-- RDDATA right after a register write returns the byte written, and the write changed that register alone. -/
theorem rddata_after_registerWritten :
    ∃ t, execAll [.rddata] (s.registerWritten r v) = .next t ∧
      t.returned = s.returned ++ [v] ∧ t.chip.reg r = v ∧ ∀ j, j ≠ r → t.chip.reg j = s.chip.reg j := by
  have hself : (s.registerWritten r v).chip.reg r = v := by
    rw [State.registerWritten_reg h, if_pos rfl]
  have hread : exec .rddata (s.registerWritten r v) = .next ((s.registerWritten r v).ret v) := by
    rw [exec, execRddata_ready (State.registerWritten_ready h r v), State.registerWritten_latch h, hself]
  refine ⟨_, execAll_cons_next hread [], ?_, hself, fun j hj => ?_⟩
  · rw [State.ret_returned, State.registerWritten_returned h]
  · rw [State.ret_chip, State.registerWritten_reg h, if_neg hj.symm]

end RegisterWritten

/-- Settles O16: either path leads to `State.registerWritten`, from which RDDATA returns the byte. -/
theorem everyRegisterReadsBackTheWholeByte : Obligations.EveryRegisterReadsBackTheWholeByte := by
  unfold Obligations.EveryRegisterReadsBackTheWholeByte
  intro s r v h
  constructor
  · rw [execAll_wrctrl_wrdata h]
    exact rddata_after_registerWritten h r v
  · rw [execAll_wrdirect h]
    exact rddata_after_registerWritten h r v

end Sys2Proof.Machine
end

section
/-!
SUPPORT and O8: in a ready chip no operand makes an operation stop (30_encoding.md rule R67).
-/

namespace Sys2Proof.Machine

/-- The narrowing of WRCTRL's value is the remainder by 16. -/
theorem narrowToLatch_toNat (v : Byte) : (narrowToLatch v).toNat = v.toNat % 16 :=
  BitVec.toNat_setWidth 4 v

/-- Every operation completes in a ready chip; WRDIRECT and ADVANCE complete on either side of the test that each makes. -/
theorem exec_completes {s : State} (h : s.Ready) (i : Instr) : ∃ t, exec i s = .next t := by
  cases i with
  | wrctrl v => exact ⟨_, execWrctrl_ready h v⟩
  | wrdata v => exact ⟨_, execWrdata_ready h v⟩
  | rddata => exact ⟨_, execRddata_ready h⟩
  | wrdirect r v =>
    obtain hr | hr := Nat.lt_or_ge 15 r.toNat
    · exact ⟨_, execWrdirect_rejected h hr v⟩
    · exact ⟨_, execWrdirect_accepted h hr v⟩
  | setsyncAsync => exact ⟨_, execSetsyncAsync_ready h⟩
  | setsyncSync => exact ⟨_, execSetsyncSync_ready h⟩
  | setsyncFlush => exact ⟨_, execSetsyncFlush_ready h⟩
  | advance us =>
    obtain hp | hp := eq_or_ne s.chip.envelopePeriod 0
    · exact ⟨_, execAdvance_stopped h hp us⟩
    · exact ⟨_, execAdvance_running h hp us⟩
  | reset clockHz first => exact ⟨_, execReset_idle h.2 clockHz first⟩

/-- Settles O8: every operation completes, and the state it completes in is the one that WRCTRL's or the rejected
WRDIRECT's own rule gives. -/
theorem everyOperandOfEveryOperationIsLegal : Obligations.EveryOperandOfEveryOperationIsLegal := by
  unfold Obligations.EveryOperandOfEveryOperationIsLegal
  intro i s h
  obtain ⟨t, ht⟩ := exec_completes h i
  refine ⟨t, ht, ?_, ?_⟩
  · rintro v rfl
    have hnext : t = s.withChip (s.chip.setLatch (narrowToLatch v)) :=
      Host.Outcome.next.inj (ht.symm.trans (execWrctrl_ready h v))
    rw [hnext, State.withChip_chip, ChipState.setLatch_latch, narrowToLatch_toNat]
  · rintro r v rfl hr
    exact Host.Outcome.next.inj (ht.symm.trans (execWrdirect_rejected h hr v))

end Sys2Proof.Machine
end

section
/-!
SUPPORT and O13: what a register write marks and recomputes, read off the chip it leaves (40_port_protocol.md rule R82).
In Sync mode no flush follows it, so WRDATA leaves exactly that chip.
-/

namespace Sys2Proof.Machine

section RegWrite

variable (c : ChipState) (i : RegIndex) (v : Byte)

/-- The marks are those of the channel map after the store: only the registers decide them. -/
theorem ChipState.regWrite_mask_self :
    (c.regWrite i v).changedMask = c.changedMask ||| (c.regWrite i v).dirty i := by
  rw [ChipState.regWrite_mask, ChipState.dirty_congr (c.regWrite_registers i v)]

/-- R11 and R12 recompute the period from the two bytes as they stand after the store. -/
theorem ChipState.regWrite_period_self : (c.regWrite i v).envelopePeriod =
    if i = 11 ∨ i = 12 then envPeriodOf (c.regWrite i v).envPeriodField.toNat c.clockBase else c.envelopePeriod := by
  rw [ChipState.regWrite_period, ChipState.envPeriodField_congr (c.regWrite_registers i v)]

end RegWrite

/-- In Sync mode WRDATA ends with the register write. -/
theorem execWrdata_sync {s : State} (h : s.Ready) (hm : s.chip.syncMode = .sync) (v : Byte) :
    execWrdata v s = .next (s.withChip (s.chip.regWrite s.chip.latch v)) := by
  have hmode : (s.withChip (s.chip.regWrite s.chip.latch v)).chip.syncMode = .sync := by
    rw [State.withChip_chip, ChipState.regWrite_syncMode, hm]
  rw [execWrdata_ready h, State.flushIfAsync_sync hmode]

/-- Settles O13: the chip left is that of the register write, and each field is the one its lemma gives. -/
theorem syncWrdataIsTheRegisterWrite : Obligations.SyncWrdataIsTheRegisterWrite := by
  unfold Obligations.SyncWrdataIsTheRegisterWrite
  intro s v h hm
  have hreg (j : RegIndex) :
      (s.chip.regWrite s.chip.latch v).reg j = if j = s.chip.latch then v else s.chip.reg j := by
    simp only [ChipState.regWrite_reg, eq_comm]
  exact ⟨s.chip.regWrite s.chip.latch v, execWrdata_sync h hm v, hreg,
    ChipState.regWrite_mask_self .., ChipState.regWrite_period_self ..,
    ChipState.regWrite_counter .., ChipState.regWrite_phase ..,
    ChipState.regWrite_latch .., (ChipState.regWrite_syncMode ..).trans hm,
    ChipState.regWrite_clockBase .., ChipState.regWrite_firstChannel ..⟩

end Sys2Proof.Machine
end

section
/-!
SUPPORT and O11: WRCTRL looks at the low 4 bits of its value alone (40_port_protocol.md rule R80).
-/

namespace Sys2Proof.Machine

/-- Two values select the same register exactly when they leave the same remainder by 16. -/
theorem narrowToLatch_eq_iff (v w : Byte) : narrowToLatch v = narrowToLatch w ↔ v.toNat % 16 = w.toNat % 16 := by
  rw [← BitVec.toNat_inj, narrowToLatch_toNat, narrowToLatch_toNat]

/-- Settles O11: WRCTRL leaves the state with the latch at the narrowed value, which equal low bits make equal. -/
theorem wrctrlLatchesTheLowFourBits : Obligations.WrctrlLatchesTheLowFourBits := by
  unfold Obligations.WrctrlLatchesTheLowFourBits
  intro s v h
  refine ⟨execWrctrl_ready h v, fun w hw => ?_⟩
  have hsame : narrowToLatch w = narrowToLatch v := (narrowToLatch_eq_iff w v).mpr hw
  rw [exec, exec, execWrctrl_ready h, execWrctrl_ready h, hsame]

end Sys2Proof.Machine
end

section
/-!
SUPPORT and O12: RDDATA returns the selected register and changes nothing else (40_port_protocol.md rule R85).
-/

namespace Sys2Proof.Machine

/-- Every register holds 0 after RESET (70_reset_and_hazards.md rule R190). -/
@[simp] theorem chipAfterReset_reg (clockHz first : Nat) (j : RegIndex) : (chipAfterReset clockHz first).reg j = 0 := by
  simp [ChipState.reg, chipAfterReset]

/-- A RESET that completes was issued outside a notification and leaves the chip of rule R190. -/
theorem exec_reset_next {s t : State} {clockHz first : Nat} (h : exec (.reset clockHz first) s = .next t) :
    s.notifying = false ∧ t = { s with chip := chipAfterReset clockHz first, resetDone := true } := by
  rw [exec, execReset] at h
  obtain ⟨hn, hrun⟩ := State.whenIdle_next h
  exact ⟨hn, (Host.Outcome.next.inj hrun).symm⟩

/-- Settles O12: RDDATA returns the selected register in any ready state, and RESET leaves one in which every register
holds 0. -/
theorem rddataReadsBackTheSelectedRegister : Obligations.RddataReadsBackTheSelectedRegister := by
  unfold Obligations.RddataReadsBackTheSelectedRegister
  refine ⟨fun s h => execRddata_ready h, fun s t clockHz first hreset => ?_⟩
  obtain ⟨hn, ht⟩ := exec_reset_next hreset
  have hready : t.Ready := by rw [ht]; exact ⟨rfl, hn⟩
  have hzero : t.chip.reg t.chip.latch = 0 := by rw [ht]; exact chipAfterReset_reg ..
  have hread : exec .rddata t = .next (t.ret (t.chip.reg t.chip.latch)) := execRddata_ready hready
  rw [hread, hzero]
  rfl

end Sys2Proof.Machine
end

section
/-!
O28: SETSYNC.FLUSH is the flush alone, in whatever mode the chip is (43_sync_controller.md rule R155).
-/

namespace Sys2Proof.Machine

/-- SETSYNC.FLUSH in a ready chip appends the records of the pending channels and empties the mask. -/
theorem exec_setsyncFlush_ready {s : State} (h : s.Ready) :
    exec .setsyncFlush s =
      .next { s with chip := s.chip.clearMask, trace := s.trace ++ s.chip.pendingRecords } := by
  rw [exec, execSetsyncFlush_ready h, State.flush_eq h.2]

/-- Settles O28: the records emitted are those of the pending channels, one for each channel of the mask. -/
theorem setsyncFlushNotifiesEveryChangedChannel : Obligations.SetsyncFlushNotifiesEveryChangedChannel := by
  unfold Obligations.SetsyncFlushNotifiesEveryChangedChannel
  intro s h
  exact ⟨s.chip.pendingRecords, exec_setsyncFlush_ready h, .of_eq s.chip.pendingRecords_eq⟩

end Sys2Proof.Machine
end

section
/-!
SUPPORT. The transaction word as a number: each field of the decoder is a quotient and a remainder of it, and each
encoded word is the sum of its fields at their places (30_encoding.md rule R62). The bit work of the encoding
statements is then arithmetic.
-/

namespace Sys2Proof

/-- A concatenation, as a number, is the upper part at its place plus the lower part. -/
theorem append_toNat {m n : Nat} (x : BitVec m) (y : BitVec n) : (x ++ y).toNat = x.toNat * 2 ^ n + y.toNat := by
  rw [BitVec.toNat_append, ← Nat.shiftLeft_add_eq_or_of_lt y.isLt, Nat.shiftLeft_eq]

/-! #### The fields of a word -/

section Fields

variable (t : Transaction)

theorem extractLsb'_toNat_div (lo len : Nat) : (t.extractLsb' lo len).toNat = t.toNat / 2 ^ lo % 2 ^ len := by
  rw [BitVec.extractLsb'_toNat, Nat.shiftRight_eq_div_pow]

theorem opField_eq : opField t = t.toNat / 2 ^ 61 := by
  have := t.isLt
  rw [opField, extractLsb'_toNat_div]
  omega

theorem vField_toNat : (vField t).toNat = t.toNat % 2 ^ 8 := by
  rw [vField, extractLsb'_toNat_div, Nat.pow_zero, Nat.div_one]

theorem rField_toNat : (rField t).toNat = t.toNat / 2 ^ 8 % 2 ^ 8 := extractLsb'_toNat_div t 8 8

theorem modeField_eq : modeField t = t.toNat % 2 ^ 2 := by
  rw [modeField, extractLsb'_toNat_div, Nat.pow_zero, Nat.div_one]

theorem lowField_eq : lowField t = t.toNat % 2 ^ 32 := by
  rw [lowField, extractLsb'_toNat_div, Nat.pow_zero, Nat.div_one]

theorem firstField_eq : firstField t = t.toNat / 2 ^ 32 % 2 ^ 29 := extractLsb'_toNat_div t 32 29

theorem zeroFrom_iff_toNat {t : Transaction} {lo : Nat} :
    zeroFrom lo t = true ↔ t.toNat / 2 ^ lo % 2 ^ (61 - lo) = 0 := by
  rw [zeroFrom_iff, ← BitVec.toNat_inj, extractLsb'_toNat_div]
  rfl

end Fields

/-! #### The word of each operation -/

theorem encode_wrctrl_toNat (v : Byte) : (encode (.wrctrl v)).toNat = v.toNat := by
  simp only [encode, append_toNat, BitVec.toNat_ofNat]
  omega

theorem encode_wrdata_toNat (v : Byte) : (encode (.wrdata v)).toNat = 2 ^ 61 + v.toNat := by
  simp only [encode, append_toNat, BitVec.toNat_ofNat]
  omega

theorem encode_rddata_toNat : (encode .rddata).toNat = 2 * 2 ^ 61 := rfl

theorem encode_wrdirect_toNat (r v : Byte) :
    (encode (.wrdirect r v)).toNat = 3 * 2 ^ 61 + r.toNat * 2 ^ 8 + v.toNat := by
  simp only [encode, append_toNat, BitVec.toNat_ofNat]
  omega

theorem encode_setsyncAsync_toNat : (encode .setsyncAsync).toNat = 4 * 2 ^ 61 := rfl

theorem encode_setsyncSync_toNat : (encode .setsyncSync).toNat = 4 * 2 ^ 61 + 1 := rfl

theorem encode_setsyncFlush_toNat : (encode .setsyncFlush).toNat = 4 * 2 ^ 61 + 2 := rfl

theorem encode_advance_toNat (us : Nat) : (encode (.advance us)).toNat = 5 * 2 ^ 61 + us % 2 ^ 32 := by
  simp only [encode, append_toNat, BitVec.toNat_ofNat]
  omega

theorem encode_reset_toNat (clockHz first : Nat) :
    (encode (.reset clockHz first)).toNat = 6 * 2 ^ 61 + first % 2 ^ 29 * 2 ^ 32 + clockHz % 2 ^ 32 := by
  simp only [encode, append_toNat, BitVec.toNat_ofNat]
  omega

end Sys2Proof
end

section
/-!
SUPPORT. The decoder, one equation per operation code and per mode (30_encoding.md rules R64 and R65).
-/

namespace Sys2Proof

section Decode

variable {t : Transaction}

theorem decode_of_op_0 (h : opField t = 0) : decode t = requireZeroFrom 8 t (.wrctrl (vField t)) := by
  simp [decode, h]

theorem decode_of_op_1 (h : opField t = 1) : decode t = requireZeroFrom 8 t (.wrdata (vField t)) := by
  simp [decode, h]

theorem decode_of_op_2 (h : opField t = 2) : decode t = requireZeroFrom 0 t .rddata := by
  simp [decode, h]

theorem decode_of_op_3 (h : opField t = 3) : decode t = requireZeroFrom 16 t (.wrdirect (rField t) (vField t)) := by
  simp [decode, h]

theorem decode_of_op_4 (h : opField t = 4) :
    decode t = if zeroFrom 2 t then decodeMode t else .error .mustBeZero := by
  simp [decode, h]

theorem decode_of_op_5 (h : opField t = 5) : decode t = requireZeroFrom 32 t (.advance (lowField t)) := by
  simp [decode, h]

theorem decode_of_op_6 (h : opField t = 6) : decode t = .ok (.reset (lowField t) (firstField t)) := by
  simp [decode, h]

theorem decode_of_op_7 (h : opField t = 7) : decode t = .error .reservedOp := by
  simp [decode, h]

theorem requireZeroFrom_zero {lo : Nat} {i : Instr} (h : zeroFrom lo t = true) : requireZeroFrom lo t i = .ok i :=
  requireZeroFrom_ok.mpr ⟨h, rfl⟩

theorem requireZeroFrom_nonzero {lo : Nat} {i : Instr} (h : zeroFrom lo t = false) :
    requireZeroFrom lo t i = .error .mustBeZero := by
  simp [requireZeroFrom, h]

/-- The mode is one of the three of rule R65, or the reserved one. -/
theorem decodeMode_cases (t : Transaction) :
    (modeField t = 0 ∧ decodeMode t = .ok .setsyncAsync) ∨ (modeField t = 1 ∧ decodeMode t = .ok .setsyncSync) ∨
    (modeField t = 2 ∧ decodeMode t = .ok .setsyncFlush) ∨ (modeField t = 3 ∧ decodeMode t = .error .reservedMode) := by
  have hlt := modeField_lt t
  unfold decodeMode
  interval_cases modeField t <;> simp

end Decode

end Sys2Proof
end

section
/-!
O2: the decoder reads back every operation that its word can hold (30_encoding.md rules R62 and R63).
-/

namespace Sys2Proof

/-- The decoder reads a SETSYNC word by its mode, once the word's number is known. -/
theorem decode_setsync {t : Transaction} {mode : Nat} (ht : t.toNat = 4 * 2 ^ 61 + mode) (hm : mode < 4) :
    modeField t = mode ∧ decode t = decodeMode t := by
  have hop : opField t = 4 := by rw [opField_eq]; omega
  have hz : zeroFrom 2 t = true := by rw [zeroFrom_iff_toNat]; omega
  exact ⟨by rw [modeField_eq]; omega, by rw [decode_of_op_4 hop, if_pos hz]⟩

theorem decode_encode_setsyncAsync : decode (encode .setsyncAsync) = .ok .setsyncAsync := by
  obtain ⟨hm, hd⟩ := decode_setsync (mode := 0) encode_setsyncAsync_toNat (by decide)
  simp [hd, decodeMode, hm]

theorem decode_encode_setsyncSync : decode (encode .setsyncSync) = .ok .setsyncSync := by
  obtain ⟨hm, hd⟩ := decode_setsync encode_setsyncSync_toNat (by decide)
  simp [hd, decodeMode, hm]

theorem decode_encode_setsyncFlush : decode (encode .setsyncFlush) = .ok .setsyncFlush := by
  obtain ⟨hm, hd⟩ := decode_setsync encode_setsyncFlush_toNat (by decide)
  simp [hd, decodeMode, hm]

/-- Settles O2: the operation code of the word selects its format, the bits between the fields are zero, and each field
is the operand. -/
theorem decodeOfEncodeIsTheOperation : Obligations.DecodeOfEncodeIsTheOperation := by
  unfold Obligations.DecodeOfEncodeIsTheOperation
  intro i hwf
  cases i with
  | wrctrl v =>
    have hw := encode_wrctrl_toNat v
    have hz : zeroFrom 8 (encode (.wrctrl v)) = true := by rw [zeroFrom_iff_toNat]; omega
    have hv : vField (encode (.wrctrl v)) = v := BitVec.eq_of_toNat_eq (by rw [vField_toNat]; omega)
    rw [decode_of_op_0 (Laws.OpField.wrctrl v), requireZeroFrom_zero hz, hv]
  | wrdata v =>
    have hw := encode_wrdata_toNat v
    have hz : zeroFrom 8 (encode (.wrdata v)) = true := by rw [zeroFrom_iff_toNat]; omega
    have hv : vField (encode (.wrdata v)) = v := BitVec.eq_of_toNat_eq (by rw [vField_toNat]; omega)
    rw [decode_of_op_1 (Laws.OpField.wrdata v), requireZeroFrom_zero hz, hv]
  | rddata =>
    have hw := encode_rddata_toNat
    have hz : zeroFrom 0 (encode .rddata) = true := by rw [zeroFrom_iff_toNat]; omega
    rw [decode_of_op_2 Laws.OpField.rddata, requireZeroFrom_zero hz]
  | wrdirect r v =>
    have hw := encode_wrdirect_toNat r v
    have hz : zeroFrom 16 (encode (.wrdirect r v)) = true := by rw [zeroFrom_iff_toNat]; omega
    have hr : rField (encode (.wrdirect r v)) = r := BitVec.eq_of_toNat_eq (by rw [rField_toNat]; omega)
    have hv : vField (encode (.wrdirect r v)) = v := BitVec.eq_of_toNat_eq (by rw [vField_toNat]; omega)
    rw [decode_of_op_3 (Laws.OpField.wrdirect r v), requireZeroFrom_zero hz, hr, hv]
  | setsyncAsync => exact decode_encode_setsyncAsync
  | setsyncSync => exact decode_encode_setsyncSync
  | setsyncFlush => exact decode_encode_setsyncFlush
  | advance us =>
    have hus : us < 2 ^ 32 := by simpa [Instr.wellFormed] using hwf
    have hw := encode_advance_toNat us
    have hz : zeroFrom 32 (encode (.advance us)) = true := by rw [zeroFrom_iff_toNat]; omega
    have hlow : lowField (encode (.advance us)) = us := by rw [lowField_eq]; omega
    rw [decode_of_op_5 (Laws.OpField.advance us), requireZeroFrom_zero hz, hlow]
  | reset clockHz first =>
    obtain ⟨hclock, hfirst⟩ : clockHz < 2 ^ 32 ∧ first < 2 ^ 29 := by simpa [Instr.wellFormed] using hwf
    have hw := encode_reset_toNat clockHz first
    have hlow : lowField (encode (.reset clockHz first)) = clockHz := by rw [lowField_eq]; omega
    have hfst : firstField (encode (.reset clockHz first)) = first := by rw [firstField_eq]; omega
    rw [decode_of_op_6 (Laws.OpField.reset clockHz first), hlow, hfst]

end Sys2Proof
end

section
/-!
O3: no word but its own decodes to an operation (30_encoding.md rules R62 and R66).
-/

namespace Sys2Proof

/-- A SETSYNC word that decodes is the word of the operation its mode names. -/
theorem encode_of_decode_setsync {t : Transaction} {i : Instr} (hop : opField t = 4) (h : decode t = .ok i) :
    i.wellFormed = true ∧ encode i = t := by
  rw [decode_of_op_4 hop] at h
  rw [opField_eq] at hop
  split at h
  · rename_i hz
    rw [zeroFrom_iff_toNat] at hz
    have hmode := modeField_eq t
    obtain ⟨hm, hd⟩ | ⟨hm, hd⟩ | ⟨hm, hd⟩ | ⟨-, hd⟩ := decodeMode_cases t <;> rw [hd] at h <;> cases h
    · exact ⟨rfl, BitVec.eq_of_toNat_eq (by rw [encode_setsyncAsync_toNat]; omega)⟩
    · exact ⟨rfl, BitVec.eq_of_toNat_eq (by rw [encode_setsyncSync_toNat]; omega)⟩
    · exact ⟨rfl, BitVec.eq_of_toNat_eq (by rw [encode_setsyncFlush_toNat]; omega)⟩
  · cases h

/-- Settles O3: the operation code, the zero bits and the fields of a word that decodes are the whole word, and its
natural operands are fields, so they are within the limits of rule R63. -/
theorem encodeOfDecodeIsTheWord : Obligations.EncodeOfDecodeIsTheWord := by
  unfold Obligations.EncodeOfDecodeIsTheWord
  intro t i h
  have hlt := opField_lt t
  have hop := opField_eq t
  obtain h0 | h1 | h2 | h3 | h4 | h5 | h6 | h7 : opField t = 0 ∨ opField t = 1 ∨ opField t = 2 ∨ opField t = 3 ∨
      opField t = 4 ∨ opField t = 5 ∨ opField t = 6 ∨ opField t = 7 := by omega
  · rw [decode_of_op_0 h0, requireZeroFrom_ok, zeroFrom_iff_toNat] at h
    obtain ⟨hz, rfl⟩ := h
    refine ⟨rfl, BitVec.eq_of_toNat_eq ?_⟩
    rw [encode_wrctrl_toNat, vField_toNat]
    omega
  · rw [decode_of_op_1 h1, requireZeroFrom_ok, zeroFrom_iff_toNat] at h
    obtain ⟨hz, rfl⟩ := h
    refine ⟨rfl, BitVec.eq_of_toNat_eq ?_⟩
    rw [encode_wrdata_toNat, vField_toNat]
    omega
  · rw [decode_of_op_2 h2, requireZeroFrom_ok, zeroFrom_iff_toNat] at h
    obtain ⟨hz, rfl⟩ := h
    refine ⟨rfl, BitVec.eq_of_toNat_eq ?_⟩
    rw [encode_rddata_toNat]
    omega
  · rw [decode_of_op_3 h3, requireZeroFrom_ok, zeroFrom_iff_toNat] at h
    obtain ⟨hz, rfl⟩ := h
    refine ⟨rfl, BitVec.eq_of_toNat_eq ?_⟩
    rw [encode_wrdirect_toNat, rField_toNat, vField_toNat]
    omega
  · exact encode_of_decode_setsync h4 h
  · rw [decode_of_op_5 h5, requireZeroFrom_ok, zeroFrom_iff_toNat] at h
    obtain ⟨hz, rfl⟩ := h
    refine ⟨decide_eq_true (lowField_lt t), BitVec.eq_of_toNat_eq ?_⟩
    rw [encode_advance_toNat, lowField_eq]
    omega
  · rw [decode_of_op_6 h6] at h
    cases h
    refine ⟨by simpa [Instr.wellFormed] using ⟨lowField_lt t, firstField_lt t⟩, BitVec.eq_of_toNat_eq ?_⟩
    rw [encode_reset_toNat, lowField_eq, firstField_eq]
    omega
  · rw [decode_of_op_7 h7] at h
    cases h

end Sys2Proof
end

section
/-!
SUPPORT and O6: the step by what stands at the head of the stream (10_state.md rule R36, 60_exceptions.md rule R182).
-/

namespace Sys2Proof.Machine

section Step

variable {s : State} {rest : List HostCall}

theorem step_word_ok {t : Transaction} {i : Instr} (hs : s.stream = .word t :: rest) (hd : decode t = .ok i) :
    step s = exec i (s.withStream rest) := by
  simp only [step, fetch, hs, HostCall.operation, hd]

theorem step_call {i : Instr} (hs : s.stream = .call i :: rest) : step s = exec i (s.withStream rest) := by
  simp only [step, fetch, hs, HostCall.operation]

theorem step_word_error {t : Transaction} {e : DecodeError} (hs : s.stream = .word t :: rest)
    (hd : decode t = .error e) : step s = .refused (.undecodable e) := by
  simp only [step, fetch, hs, HostCall.operation, hd]

theorem step_idle (hs : s.stream = []) : step s = .next s := by
  simp only [step, fetch, hs]

end Step

/-- A step that answers next kept an idle chip, or executed the operation at the head of the stream. -/
theorem step_next_cases {s t : State} (h : step s = .next t) :
    t = s ∨ ∃ i rest, exec i (s.withStream rest) = .next t := by
  match hs : s.stream with
  | [] =>
    rw [step_idle hs] at h
    exact .inl (Host.Outcome.next.inj h).symm
  | .call i :: rest =>
    rw [step_call hs] at h
    exact .inr ⟨i, rest, h⟩
  | .word w :: rest =>
    match hd : decode w with
    | .ok i =>
      rw [step_word_ok hs hd] at h
      exact .inr ⟨i, rest, h⟩
    | .error e =>
      rw [step_word_error hs hd] at h
      cases h

/-- Settles O6: each clause is the equation of the step for that head of the stream. -/
theorem stepRunsTheNextOperation : Obligations.StepRunsTheNextOperation := by
  unfold Obligations.StepRunsTheNextOperation
  intro s rest
  exact ⟨fun _ _ => step_word_ok, fun _ => step_call, fun _ _ => step_word_error, step_idle⟩

end Sys2Proof.Machine
end

section
/-!
SUPPORT. What a completed operation has done, in one place: `ChipState.updatedBy` is its effect on the chip without its
flush, and `Completed` says that beyond it there was a flush or nothing. The whole-machine rules then speak of
`updatedBy` alone.
-/

namespace Sys2Proof.Machine

/-- The effect of an operation on the chip, before the flush it may end with. -/
def ChipState.updatedBy (c : ChipState) : Instr → ChipState
  | .wrctrl v => c.setLatch (narrowToLatch v)
  | .wrdata v => c.regWrite c.latch v
  | .rddata => c
  | .wrdirect r v => if r.toNat ≤ 15 then (c.setLatch (narrowToLatch r)).regWrite (narrowToLatch r) v else c
  | .setsyncAsync => c.setMode .async
  | .setsyncSync => c.setMode .sync
  | .setsyncFlush => c
  | .advance us => c.advance us
  | .reset clockHz first => chipAfterReset clockHz first

theorem ChipState.updatedBy_wrdirect_accepted (c : ChipState) {r : Byte} (hr : r.toNat ≤ 15) (v : Byte) :
    c.updatedBy (.wrdirect r v) = (c.setLatch (narrowToLatch r)).regWrite (narrowToLatch r) v := if_pos hr

theorem ChipState.updatedBy_wrdirect_rejected (c : ChipState) {r : Byte} (hr : 15 < r.toNat) (v : Byte) :
    c.updatedBy (.wrdirect r v) = c := if_neg (by omega)

/-- `t` is `s` after operation `i`: the chip is updated, and either nothing was notified or a flush ended the
operation. -/
structure Completed (i : Instr) (s t : State) : Prop where
  idle : t.notifying = false
  resetDone : t.resetDone = true
  stream : t.stream = s.stream
  returned : i ≠ .rddata → t.returned = s.returned
  chip : (t.chip = s.chip.updatedBy i ∧ t.trace = s.trace) ∨
    (t.chip = (s.chip.updatedBy i).clearMask ∧ t.trace = s.trace ++ (s.chip.updatedBy i).pendingRecords)

section Completed

variable {i : Instr} {s : State} {c : ChipState}

theorem Completed.withChip (hs : s.Ready) (hc : c = s.chip.updatedBy i) : Completed i s (s.withChip c) :=
  ⟨hs.2, hs.1, rfl, fun _ => rfl, .inl ⟨hc, rfl⟩⟩

theorem Completed.flush (hs : s.Ready) (hc : c = s.chip.updatedBy i) : Completed i s (s.withChip c).flush := by
  rw [State.flush_eq (hs.withChip c).2]
  exact ⟨hs.2, hs.1, rfl, fun _ => rfl, .inr ⟨by rw [← hc]; rfl, by rw [← hc]; rfl⟩⟩

theorem Completed.flushIfAsync (hs : s.Ready) (hc : c = s.chip.updatedBy i) :
    Completed i s (s.withChip c).flushIfAsync := by
  unfold State.flushIfAsync
  split
  · exact .flush hs hc
  · exact .withChip hs hc

end Completed

/-- Every operation that answers next has updated the chip by its own rule and flushed at most once. -/
theorem exec_next_completed {i : Instr} {s t : State} (h : exec i s = .next t) : Completed i s t := by
  obtain ⟨clockHz, first, rfl, hn, rfl⟩ | ⟨hs, hcases⟩ := exec_next_cases h
  · exact ⟨hn, rfl, rfl, fun _ => rfl, .inl ⟨rfl, rfl⟩⟩
  · obtain ⟨v, rfl, rfl⟩ | ⟨v, rfl, rfl⟩ | ⟨rfl, rfl⟩ | ⟨r, v, rfl, hr, rfl⟩ | ⟨r, v, rfl, hr, rfl⟩ | ⟨rfl, rfl⟩ |
      ⟨rfl, rfl⟩ | ⟨rfl, rfl⟩ | ⟨us, rfl, hp, rfl⟩ | ⟨us, rfl, hp, rfl⟩ := hcases
    · exact .withChip hs rfl
    · exact .flushIfAsync hs rfl
    · exact ⟨hs.2, hs.1, rfl, fun hne => absurd rfl hne, .inl ⟨rfl, rfl⟩⟩
    · exact .flushIfAsync hs (s.chip.updatedBy_wrdirect_accepted hr v).symm
    · exact .withChip hs (ChipState.updatedBy_wrdirect_rejected _ hr v).symm
    · exact .flush hs rfl
    · exact .flush hs rfl
    · exact .flush hs rfl
    · exact .withChip hs (ChipState.advance_stopped _ us hp).symm
    · exact .flushIfAsync hs rfl

section Fields

variable {i : Instr} {s t : State} (h : Completed i s t)
include h

theorem Completed.ready : t.Ready := ⟨h.resetDone, h.idle⟩

/-- The flush touches the mask of changed channels alone. -/
theorem Completed.eq_updatedBy {α : Type} (field : ChipState → α) (hf : ∀ c : ChipState, field c.clearMask = field c) :
    field t.chip = field (s.chip.updatedBy i) := by
  obtain ⟨hc, -⟩ | ⟨hc, -⟩ := h.chip
  · rw [hc]
  · rw [hc, hf]

theorem Completed.registers : t.chip.registers = (s.chip.updatedBy i).registers := h.eq_updatedBy _ fun _ => rfl
theorem Completed.reg (j : RegIndex) : t.chip.reg j = (s.chip.updatedBy i).reg j := ChipState.reg_congr h.registers j
theorem Completed.latch : t.chip.latch = (s.chip.updatedBy i).latch := h.eq_updatedBy _ fun _ => rfl
theorem Completed.syncMode : t.chip.syncMode = (s.chip.updatedBy i).syncMode := h.eq_updatedBy _ fun _ => rfl
theorem Completed.clockBase : t.chip.clockBase = (s.chip.updatedBy i).clockBase := h.eq_updatedBy _ fun _ => rfl
theorem Completed.firstChannel : t.chip.firstChannel = (s.chip.updatedBy i).firstChannel := h.eq_updatedBy _ fun _ => rfl
theorem Completed.envelopePeriod : t.chip.envelopePeriod = (s.chip.updatedBy i).envelopePeriod :=
  h.eq_updatedBy _ fun _ => rfl
theorem Completed.envelopeCounter : t.chip.envelopeCounter = (s.chip.updatedBy i).envelopeCounter :=
  h.eq_updatedBy _ fun _ => rfl
theorem Completed.envelopePhase : t.chip.envelopePhase = (s.chip.updatedBy i).envelopePhase :=
  h.eq_updatedBy _ fun _ => rfl

end Fields

end Sys2Proof.Machine
end

section
/-!
SUPPORT, O35 and O36: the invariant `State.Inv` holds after reset and every step keeps it. Its chip part splits in three: the
period rule and the stopped-envelope rule concern `ChipState.updatedBy` alone, the Async rule concerns the flush.
-/

namespace Sys2Proof.Machine

/-! #### The envelope period -/

/-- The envelope period is the one that R11, R12 and the clock base give (42_envelope.md rule R122). -/
def ChipState.PeriodCurrent (c : ChipState) : Prop :=
  c.envelopePeriod = envPeriodOf c.envPeriodField.toNat c.clockBase

theorem ChipState.PeriodCurrent.congr {c d : ChipState} (h : c.PeriodCurrent) (hr : d.registers = c.registers)
    (hp : d.envelopePeriod = c.envelopePeriod) (hc : d.clockBase = c.clockBase) : d.PeriodCurrent := by
  unfold ChipState.PeriodCurrent
  rw [hp, hc, ChipState.envPeriodField_congr hr]
  exact h

/-- A write to R11 or R12 recomputes the period; a write to another register leaves both of them. -/
theorem ChipState.PeriodCurrent.regWrite {c : ChipState} (h : c.PeriodCurrent) (i : RegIndex) (v : Byte) :
    (c.regWrite i v).PeriodCurrent := by
  unfold ChipState.PeriodCurrent
  rw [ChipState.regWrite_period_self, ChipState.regWrite_clockBase]
  split
  · rfl
  · rename_i hi
    rw [not_or] at hi
    rw [ChipState.envPeriodField, ChipState.regWrite_reg, ChipState.regWrite_reg, if_neg hi.1, if_neg hi.2]
    exact h

theorem chipAfterReset_periodCurrent (clockHz first : Nat) : (chipAfterReset clockHz first).PeriodCurrent := by
  unfold ChipState.PeriodCurrent
  rw [ChipState.envPeriodField, chipAfterReset_reg, chipAfterReset_reg]
  rfl

theorem ChipState.PeriodCurrent.updatedBy {c : ChipState} (h : c.PeriodCurrent) (i : Instr) :
    (c.updatedBy i).PeriodCurrent := by
  cases i with
  | wrdata v => exact h.regWrite _ v
  | wrdirect r v =>
    obtain hr | hr := Nat.lt_or_ge 15 r.toNat
    · rwa [c.updatedBy_wrdirect_rejected hr]
    · rw [c.updatedBy_wrdirect_accepted hr]
      exact ChipState.PeriodCurrent.regWrite (c := c.setLatch (narrowToLatch r)) h _ v
  | advance us => exact h.congr (c.advance_registers us) (c.advance_envelopePeriod us) (c.advance_clockBase us)
  | reset clockHz first => exact chipAfterReset_periodCurrent clockHz first
  | wrctrl _ | rddata | setsyncAsync | setsyncSync | setsyncFlush => exact h

/-! #### The stopped envelope -/

/-- With the clock stopped the envelope stands at its start (42_envelope.md rule R129). -/
def ChipState.StoppedAtStart (c : ChipState) : Prop :=
  c.clockBase = 0 → c.envelopeCounter = 0 ∧ c.envelopePhase = 0

/-- A register write leaves the counter and the phase, or zeroes them. -/
theorem ChipState.StoppedAtStart.regWrite {c : ChipState} (h : c.StoppedAtStart) (i : RegIndex) (v : Byte) :
    (c.regWrite i v).StoppedAtStart := by
  intro hc
  rw [ChipState.regWrite_clockBase] at hc
  obtain ⟨hcounter, hphase⟩ := h hc
  rw [ChipState.regWrite_counter, ChipState.regWrite_phase, hcounter, hphase, ite_self, ite_self]
  exact ⟨rfl, rfl⟩

/-- A stopped clock gives the period 0, with which ADVANCE does nothing. -/
theorem ChipState.StoppedAtStart.advance {c : ChipState} (h : c.StoppedAtStart) (hp : c.PeriodCurrent) (us : Nat) :
    (c.advance us).StoppedAtStart := by
  intro hc
  rw [ChipState.advance_clockBase] at hc
  have hzero : c.envelopePeriod = 0 := by rw [hp, envPeriodOf, if_pos hc]
  rw [c.advance_stopped us hzero]
  exact h hc

theorem ChipState.StoppedAtStart.updatedBy {c : ChipState} (h : c.StoppedAtStart) (hp : c.PeriodCurrent) (i : Instr) :
    (c.updatedBy i).StoppedAtStart := by
  cases i with
  | wrdata v => exact h.regWrite _ v
  | wrdirect r v =>
    obtain hr | hr := Nat.lt_or_ge 15 r.toNat
    · rwa [c.updatedBy_wrdirect_rejected hr]
    · rw [c.updatedBy_wrdirect_accepted hr]
      exact ChipState.StoppedAtStart.regWrite (c := c.setLatch (narrowToLatch r)) h _ v
  | advance us => exact h.advance hp us
  | reset clockHz first => exact fun _ => ⟨rfl, rfl⟩
  | wrctrl _ | rddata | setsyncAsync | setsyncSync | setsyncFlush => exact h

/-! #### Nothing pending in Async mode -/

/-- In Async mode nothing stays pending (40_port_protocol.md rule R87). -/
def ChipState.AsyncEmpty (c : ChipState) : Prop := c.syncMode = .async → c.changedMask = 0

theorem State.flush_asyncEmpty {s : State} (h : s.notifying = false) : s.flush.chip.AsyncEmpty := by
  rw [State.flush_eq h]
  exact fun _ => rfl

theorem State.flushIfAsync_asyncEmpty {s : State} (h : s.notifying = false) : s.flushIfAsync.chip.AsyncEmpty := by
  unfold State.flushIfAsync
  split
  · exact State.flush_asyncEmpty h
  · rename_i hm
    exact fun ha => by rw [hm] at ha; cases ha

/-- An operation ends with a flush, or in Sync mode, or leaves mode and mask alone. -/
theorem exec_keeps_asyncEmpty {i : Instr} {s t : State} (h : exec i s = .next t) (hs : s.chip.AsyncEmpty) :
    t.chip.AsyncEmpty := by
  obtain ⟨clockHz, first, rfl, hn, rfl⟩ | ⟨⟨-, hn⟩, hcases⟩ := exec_next_cases h
  · exact fun _ => rfl
  · obtain ⟨v, rfl, rfl⟩ | ⟨v, rfl, rfl⟩ | ⟨rfl, rfl⟩ | ⟨r, v, rfl, hr, rfl⟩ | ⟨r, v, rfl, hr, rfl⟩ | ⟨rfl, rfl⟩ |
      ⟨rfl, rfl⟩ | ⟨rfl, rfl⟩ | ⟨us, rfl, hp, rfl⟩ | ⟨us, rfl, hp, rfl⟩ := hcases
    · exact hs
    · exact State.flushIfAsync_asyncEmpty hn
    · exact hs
    · exact State.flushIfAsync_asyncEmpty hn
    · exact hs
    · exact State.flush_asyncEmpty hn
    · exact State.flush_asyncEmpty hn
    · exact State.flush_asyncEmpty hn
    · exact hs
    · exact State.flushIfAsync_asyncEmpty hn

/-! #### The invariant -/

/-- Every operation keeps the chip's invariant. -/
theorem ChipState.Inv.exec {i : Instr} {s t : State} (hs : s.chip.Inv) (h : exec i s = .next t) : t.chip.Inv := by
  have hdone := exec_next_completed h
  have hperiod : (s.chip.updatedBy i).PeriodCurrent := ChipState.PeriodCurrent.updatedBy hs.period i
  refine ⟨exec_keeps_asyncEmpty h hs.asyncMask, ?_, ?_⟩
  · exact hperiod.congr hdone.registers hdone.envelopePeriod hdone.clockBase
  · intro hc
    rw [hdone.clockBase] at hc
    rw [hdone.envelopeCounter, hdone.envelopePhase]
    exact ChipState.StoppedAtStart.updatedBy hs.stopped hs.period i hc

/-- RESET establishes the chip's invariant, whatever it found. -/
theorem chipAfterReset_inv (clockHz first : Nat) : (chipAfterReset clockHz first).Inv :=
  ⟨fun _ => rfl, chipAfterReset_periodCurrent clockHz first, fun _ => ⟨rfl, rfl⟩⟩

/-- Settles O35: the reset chip is the one that RESET leaves. -/
theorem resetMeetsTheInvariant : Obligations.ResetMeetsTheInvariant := by
  unfold Obligations.ResetMeetsTheInvariant
  exact ⟨rfl, fun _ => chipAfterReset_inv Config.resetClockHz Config.resetFirstChannel⟩

/-- Settles O36: an idle step keeps the state; an operation ran in a ready chip, whose invariant it keeps, or was a RESET,
which establishes it. -/
theorem everyStepKeepsTheInvariant : Obligations.EveryStepKeepsTheInvariant := by
  unfold Obligations.EveryStepKeepsTheInvariant
  intro s t hs h
  obtain rfl | ⟨i, rest, hexec⟩ := step_next_cases h
  · exact hs
  · refine ⟨(exec_next_completed hexec).idle, fun _ => ?_⟩
    obtain ⟨hdone, -⟩ | ⟨-, clockHz, first, rfl⟩ := ready_of_exec_next hexec
    · exact ChipState.Inv.exec (s := s.withStream rest) (hs.chip hdone) hexec
    · obtain ⟨-, rfl⟩ := exec_reset_next hexec
      exact chipAfterReset_inv clockHz first

end Sys2Proof.Machine
end

section
/-!
SUPPORT and O4: the rows of the opcode table, as numbers. Each mask keeps the bits from some position up, so a row covers
a word exactly when the two agree from there up (spec/opcode_table.json).
-/

namespace Sys2Proof

theorem OpcodeRow.covers_iff_toNat {row : OpcodeRow} {t : Transaction} (free : Nat)
    (hmask : row.mask = BitVec.allOnes 64 <<< free) :
    row.covers t = true ↔ t.toNat / 2 ^ free * 2 ^ free = row.pattern.toNat := by
  have hle : t.toNat / 2 ^ free * 2 ^ free < 2 ^ 64 := (Nat.div_mul_le_self _ _).trans_lt t.isLt
  rw [OpcodeRow.covers, beq_iff_eq, hmask, ← BitVec.shiftLeft_ushiftRight, ← BitVec.toNat_inj, BitVec.toNat_shiftLeft,
    BitVec.toNat_ushiftRight, Nat.shiftRight_eq_div_pow, Nat.shiftLeft_eq, Nat.mod_eq_of_lt hle]

/-- The position in the opcode table of the row of an operation. -/
def tableIndex : Instr → Fin 9
  | .wrctrl _ => 0
  | .wrdata _ => 1
  | .rddata => 2
  | .wrdirect _ _ => 3
  | .setsyncAsync => 4
  | .setsyncSync => 5
  | .setsyncFlush => 6
  | .advance _ => 7
  | .reset _ _ => 8

/-- The row of an operation. -/
def rowOf (i : Instr) : OpcodeRow := opcodeTable[(tableIndex i).val]'(tableIndex i).isLt

/-- The row of an operation covers its word. -/
theorem rowOf_covers_encode (i : Instr) : (rowOf i).covers (encode i) = true := by
  cases i with
  | wrctrl v =>
    rw [OpcodeRow.covers_iff_toNat 8 rfl, encode_wrctrl_toNat]
    show v.toNat / 2 ^ 8 * 2 ^ 8 = 0
    omega
  | wrdata v =>
    rw [OpcodeRow.covers_iff_toNat 8 rfl, encode_wrdata_toNat]
    show (2 ^ 61 + v.toNat) / 2 ^ 8 * 2 ^ 8 = 2 ^ 61
    omega
  | wrdirect r v =>
    rw [OpcodeRow.covers_iff_toNat 16 rfl, encode_wrdirect_toNat]
    show (3 * 2 ^ 61 + r.toNat * 2 ^ 8 + v.toNat) / 2 ^ 16 * 2 ^ 16 = 3 * 2 ^ 61
    omega
  | advance us =>
    rw [OpcodeRow.covers_iff_toNat 32 rfl, encode_advance_toNat]
    show (5 * 2 ^ 61 + us % 2 ^ 32) / 2 ^ 32 * 2 ^ 32 = 5 * 2 ^ 61
    omega
  | reset clockHz first =>
    rw [OpcodeRow.covers_iff_toNat 61 rfl, encode_reset_toNat]
    show (6 * 2 ^ 61 + first % 2 ^ 29 * 2 ^ 32 + clockHz % 2 ^ 32) / 2 ^ 61 * 2 ^ 61 = 6 * 2 ^ 61
    omega
  | rddata | setsyncAsync | setsyncSync | setsyncFlush => decide

/-- A word that a row of the table covers decodes to an operation of the row's mnemonic. -/
theorem decode_of_covers {t : Transaction} {row : OpcodeRow} (hrow : row ∈ opcodeTable) (hc : row.covers t = true) :
    ∃ i, decode t = .ok i ∧ row.mnemonic = i.mnemonic := by
  simp only [opcodeTable, List.mem_cons, List.not_mem_nil, or_false] at hrow
  obtain rfl | rfl | rfl | rfl | rfl | rfl | rfl | rfl | rfl := hrow
  · have hw : t.toNat / 2 ^ 8 * 2 ^ 8 = 0 := (OpcodeRow.covers_iff_toNat 8 rfl).mp hc
    have hz : zeroFrom 8 t = true := by rw [zeroFrom_iff_toNat]; omega
    exact ⟨_, (decode_of_op_0 (by rw [opField_eq]; omega)).trans (requireZeroFrom_zero hz), rfl⟩
  · have hw : t.toNat / 2 ^ 8 * 2 ^ 8 = 2 ^ 61 := (OpcodeRow.covers_iff_toNat 8 rfl).mp hc
    have hz : zeroFrom 8 t = true := by rw [zeroFrom_iff_toNat]; omega
    exact ⟨_, (decode_of_op_1 (by rw [opField_eq]; omega)).trans (requireZeroFrom_zero hz), rfl⟩
  · have hw : t.toNat / 2 ^ 0 * 2 ^ 0 = 2 * 2 ^ 61 := (OpcodeRow.covers_iff_toNat 0 rfl).mp hc
    have hz : zeroFrom 0 t = true := by rw [zeroFrom_iff_toNat]; omega
    exact ⟨_, (decode_of_op_2 (by rw [opField_eq]; omega)).trans (requireZeroFrom_zero hz), rfl⟩
  · have hw : t.toNat / 2 ^ 16 * 2 ^ 16 = 3 * 2 ^ 61 := (OpcodeRow.covers_iff_toNat 16 rfl).mp hc
    have hz : zeroFrom 16 t = true := by rw [zeroFrom_iff_toNat]; omega
    exact ⟨_, (decode_of_op_3 (by rw [opField_eq]; omega)).trans (requireZeroFrom_zero hz), rfl⟩
  · have hw : t.toNat / 2 ^ 0 * 2 ^ 0 = 4 * 2 ^ 61 + 0 := (OpcodeRow.covers_iff_toNat 0 rfl).mp hc
    obtain ⟨hm, hd⟩ := decode_setsync (t := t) (mode := 0) (by omega) (by decide)
    exact ⟨.setsyncAsync, by simp [hd, decodeMode, hm], rfl⟩
  · have hw : t.toNat / 2 ^ 0 * 2 ^ 0 = 4 * 2 ^ 61 + 1 := (OpcodeRow.covers_iff_toNat 0 rfl).mp hc
    obtain ⟨hm, hd⟩ := decode_setsync (t := t) (mode := 1) (by omega) (by decide)
    exact ⟨.setsyncSync, by simp [hd, decodeMode, hm], rfl⟩
  · have hw : t.toNat / 2 ^ 0 * 2 ^ 0 = 4 * 2 ^ 61 + 2 := (OpcodeRow.covers_iff_toNat 0 rfl).mp hc
    obtain ⟨hm, hd⟩ := decode_setsync (t := t) (mode := 2) (by omega) (by decide)
    exact ⟨.setsyncFlush, by simp [hd, decodeMode, hm], rfl⟩
  · have hw : t.toNat / 2 ^ 32 * 2 ^ 32 = 5 * 2 ^ 61 := (OpcodeRow.covers_iff_toNat 32 rfl).mp hc
    have hz : zeroFrom 32 t = true := by rw [zeroFrom_iff_toNat]; omega
    exact ⟨_, (decode_of_op_5 (by rw [opField_eq]; omega)).trans (requireZeroFrom_zero hz), rfl⟩
  · have hw : t.toNat / 2 ^ 61 * 2 ^ 61 = 6 * 2 ^ 61 := (OpcodeRow.covers_iff_toNat 61 rfl).mp hc
    exact ⟨_, decode_of_op_6 (by rw [opField_eq]; omega), rfl⟩

/-- Settles O4: a decoded word is the word of its operation (O3), which the operation's row covers; and whatever row covers
a word, the word decodes to that row's operation. -/
theorem decoderAgreesWithTheOpcodeTable : Obligations.DecoderAgreesWithTheOpcodeTable := by
  unfold Obligations.DecoderAgreesWithTheOpcodeTable
  constructor
  · intro t i h
    obtain ⟨-, rfl⟩ := encodeOfDecodeIsTheWord t i h
    refine ⟨⟨rowOf i, List.getElem_mem _, rowOf_covers_encode i⟩, fun row hrow hc => ?_⟩
    obtain ⟨j, hj, hmnemonic⟩ := decode_of_covers hrow hc
    have hij : j = i := Except.ok.inj (hj.symm.trans h)
    rw [hmnemonic, hij]
  · intro t e h row hrow
    by_contra hc
    obtain ⟨i, hi, -⟩ := decode_of_covers hrow (by simpa using hc)
    rw [h] at hi
    cases hi

end Sys2Proof
end

section
/-!
O5, O1 and O7: the words the decoder refuses (30_encoding.md rule R66), the sample words, and an issued table word.
-/

namespace Sys2Proof.Machine

/-- A nonzero bit in a position that the word's format says must be zero. -/
def NonzeroReserved (t : Transaction) : Prop :=
  (opField t ≤ 1 ∧ t.extractLsb' 8 53 ≠ 0) ∨ (opField t = 2 ∧ t.extractLsb' 0 61 ≠ 0) ∨
  (opField t = 3 ∧ t.extractLsb' 16 45 ≠ 0) ∨ (opField t = 4 ∧ t.extractLsb' 2 59 ≠ 0) ∨
  (opField t = 5 ∧ t.extractLsb' 32 29 ≠ 0)

/-- A SETSYNC word of mode 3 whose must-be-zero bits hold zero. -/
def ReservedMode (t : Transaction) : Prop := opField t = 4 ∧ t.extractLsb' 2 59 = 0 ∧ modeField t = 3

theorem decode_nonzeroReserved {t : Transaction} (h : NonzeroReserved t) : decode t = .error .mustBeZero := by
  have hnonzero {lo : Nat} (hz : t.extractLsb' lo (61 - lo) ≠ 0) : zeroFrom lo t = false :=
    Bool.eq_false_iff.mpr (mt zeroFrom_iff.mp hz)
  obtain ⟨hop, hz⟩ | ⟨hop, hz⟩ | ⟨hop, hz⟩ | ⟨hop, hz⟩ | ⟨hop, hz⟩ := h
  · obtain h0 | h1 : opField t = 0 ∨ opField t = 1 := by omega
    · rw [decode_of_op_0 h0, requireZeroFrom_nonzero (hnonzero hz)]
    · rw [decode_of_op_1 h1, requireZeroFrom_nonzero (hnonzero hz)]
  · rw [decode_of_op_2 hop, requireZeroFrom_nonzero (hnonzero hz)]
  · rw [decode_of_op_3 hop, requireZeroFrom_nonzero (hnonzero hz)]
  · rw [decode_of_op_4 hop, hnonzero hz]
    rfl
  · rw [decode_of_op_5 hop, requireZeroFrom_nonzero (hnonzero hz)]

theorem decode_reservedMode {t : Transaction} (h : ReservedMode t) : decode t = .error .reservedMode := by
  obtain ⟨hop, hz, hmode⟩ := h
  rw [decode_of_op_4 hop, if_pos (zeroFrom_iff.mpr hz)]
  simp [decodeMode, hmode]

/-- Every other word decodes: an operation code that has a format, its must-be-zero bits zero, its mode one of three. -/
theorem decode_ok_of_unreserved {t : Transaction} (hop : opField t ≠ 7) (hmode : ¬ ReservedMode t)
    (hmbz : ¬ NonzeroReserved t) : ∃ i, decode t = .ok i := by
  have hlt := opField_lt t
  simp only [NonzeroReserved, not_or, not_and, not_not] at hmbz
  obtain ⟨hz01, hz2, hz3, hz4, hz5⟩ := hmbz
  obtain h0 | h1 | h2 | h3 | h4 | h5 | h6 : opField t = 0 ∨ opField t = 1 ∨ opField t = 2 ∨ opField t = 3 ∨
      opField t = 4 ∨ opField t = 5 ∨ opField t = 6 := by omega
  · exact ⟨_, (decode_of_op_0 h0).trans (requireZeroFrom_zero (zeroFrom_iff.mpr (hz01 (by omega))))⟩
  · exact ⟨_, (decode_of_op_1 h1).trans (requireZeroFrom_zero (zeroFrom_iff.mpr (hz01 (by omega))))⟩
  · exact ⟨_, (decode_of_op_2 h2).trans (requireZeroFrom_zero (zeroFrom_iff.mpr (hz2 h2)))⟩
  · exact ⟨_, (decode_of_op_3 h3).trans (requireZeroFrom_zero (zeroFrom_iff.mpr (hz3 h3)))⟩
  · rw [decode_of_op_4 h4, if_pos (zeroFrom_iff.mpr (hz4 h4))]
    obtain ⟨-, hd⟩ | ⟨-, hd⟩ | ⟨-, hd⟩ | ⟨hm, -⟩ := decodeMode_cases t
    · exact ⟨_, hd⟩
    · exact ⟨_, hd⟩
    · exact ⟨_, hd⟩
    · exact absurd ⟨h4, hz4 h4, hm⟩ hmode
  · exact ⟨_, (decode_of_op_5 h5).trans (requireZeroFrom_zero (zeroFrom_iff.mpr (hz5 h5)))⟩
  · exact ⟨_, decode_of_op_6 h6⟩

/-- Settles O5: the decoder names each reserved word and reads every other, and the step passes on what it says. -/
theorem refusedWordsAreTheReservedOnes : Obligations.RefusedWordsAreTheReservedOnes := by
  unfold Obligations.RefusedWordsAreTheReservedOnes
  intro t s rest hs
  refine ⟨fun hop => step_word_error hs (decode_of_op_7 hop), fun hmode => step_word_error hs (decode_reservedMode hmode),
    fun hmbz => step_word_error hs (decode_nonzeroReserved hmbz), fun hop hmode hmbz => ?_⟩
  obtain ⟨i, hd⟩ := decode_ok_of_unreserved hop hmode hmbz
  exact ⟨i, hd, step_word_ok hs hd⟩

/-- Settles O1: the decoder is evaluated on each word of the list. -/
theorem sampleWordsDecode : Obligations.SampleWordsDecode := by
  unfold Obligations.SampleWordsDecode
  decide

/-- Settles O7: issuing the word changes the stream alone, and the step takes the word off it again. -/
theorem issuedTableWordRunsAtOnce : Obligations.IssuedTableWordRunsAtOnce := by
  unfold Obligations.IssuedTableWordRunsAtOnce
  intro s nbits w i h
  have hd : decode (tableWord nbits w) = .ok i := by
    unfold decodeTableWord at h
    cases hw : decode (tableWord nbits w) <;> rw [hw] at h <;> cases h
    rfl
  exact step_word_ok (s := s.withFetchWord nbits w) rfl hd

end Sys2Proof.Machine
end

section
/-!
O9 and O10: when an operation is refused (70_reset_and_hazards.md rule R192, 60_exceptions.md rules R175 and R176).
-/

namespace Sys2Proof.Machine

/-- Every operation but RESET asks for an earlier RESET. -/
theorem exec_eq_whenReady {i : Instr} (hi : ∀ clockHz first, i ≠ .reset clockHz first) (s : State) :
    ∃ run, exec i s = s.whenReady run := by
  cases i with
  | reset clockHz first => exact absurd rfl (hi clockHz first)
  | _ =>
    simp only [exec, execWrctrl, execWrdata, execRddata, execWrdirect, execSetsyncAsync, execSetsyncSync,
      execSetsyncFlush, execAdvance]
    exact ⟨_, rfl⟩

theorem exec_beforeReset {i : Instr} {s : State} (hn : s.notifying = false) (hr : s.resetDone = false)
    (hi : ∀ clockHz first, i ≠ .reset clockHz first) : exec i s = .refused .beforeReset := by
  obtain ⟨run, hrun⟩ := exec_eq_whenReady hi s
  rw [hrun, State.whenReady_beforeReset hn hr]

theorem exec_insideNotification {s : State} (hn : s.notifying = true) (i : Instr) :
    exec i s = .refused .insideNotification := by
  by_cases hi : ∀ clockHz first, i ≠ .reset clockHz first
  · obtain ⟨run, hrun⟩ := exec_eq_whenReady hi s
    rw [hrun, State.whenReady_notifying hn]
  · push Not at hi
    obtain ⟨clockHz, first, rfl⟩ := hi
    exact if_pos hn

/-- Settles O9: RESET runs in any idle chip and leaves it ready; every other operation asks for an earlier RESET. -/
theorem onlyResetRunsBeforeReset : Obligations.OnlyResetRunsBeforeReset := by
  unfold Obligations.OnlyResetRunsBeforeReset
  intro i s hr hn
  refine ⟨?_, exec_beforeReset hn hr⟩
  rintro clockHz first rfl
  exact ⟨_, execReset_idle hn clockHz first, rfl, hn⟩

/-- The channels a flush has come to by channel k are those before it and k itself. -/
theorem channelOrder_upTo (k : Fin 6) :
    (List.finRange 6).filter (· ≤ k) = channelOrder.filter (· < k) ++ [k] := by
  revert k
  decide

/-- The state in which the mixer is called with channel k's record. -/
theorem State.atCallback_eq {s : State} (hn : s.notifying = false) (k : Fin 6) :
    s.atCallback k = { s with
      notifying := true
      trace := s.trace ++ ((channelOrder.filter (· < k)).filter s.chip.pending).map s.chip.record ++
        [s.chip.record k] } := by
  rw [State.atCallback, State.deliver_foldl hn]
  rfl

/-- Settles O10: the turns of the flush before channel k add the records of the pending channels before it and touch
nothing else; then k's own record follows, with the notification in progress. -/
theorem operationsInsideANotificationAreRefused : Obligations.OperationsInsideANotificationAreRefused := by
  unfold Obligations.OperationsInsideANotificationAreRefused
  intro s k h hk
  rw [State.atCallback_eq h.2]
  refine ⟨rfl, ?_, exec_insideNotification rfl⟩
  have hpending : ((List.finRange 6).filter fun j => s.chip.changedMask.getLsbD j.val && decide (j ≤ k)) =
      (channelOrder.filter (· < k)).filter s.chip.pending ++ [k] := by
    have hk' : s.chip.pending k = true := hk
    rw [← List.filter_filter, channelOrder_upTo, List.filter_append]
    change _ ++ [k].filter s.chip.pending = _
    rw [List.filter_singleton, hk']
    rfl
  rw [hpending, List.map_append, ← List.append_assoc]
  rfl

end Sys2Proof.Machine
end

section
/-!
O14: in Async mode the flush follows the register write (40_port_protocol.md rule R81).
-/

namespace Sys2Proof.Machine

/-- Settles O14: the chip left is that of the register write with an empty mask, and the records are those of the channels
pending after the write; the mask is no part of a record. -/
theorem asyncWrdataNotifiesEveryPendingChannel : Obligations.AsyncWrdataNotifiesEveryPendingChannel := by
  unfold Obligations.AsyncWrdataNotifiesEveryPendingChannel
  intro s v h hm
  have hmode : (s.chip.regWrite s.chip.latch v).syncMode = .async := (ChipState.regWrite_syncMode ..).trans hm
  have hexec := execWrdata_ready h v
  rw [State.flushIfAsync_async (s := s.withChip (s.chip.regWrite s.chip.latch v)) h.2 hmode, State.withChip_chip,
    ChipState.pendingRecords_eq, ChipState.regWrite_mask_self] at hexec
  refine ⟨(s.chip.regWrite s.chip.latch v).clearMask, hexec, rfl, fun j => ?_, ChipState.regWrite_period_self ..,
    ChipState.regWrite_counter .., ChipState.regWrite_phase .., ChipState.regWrite_latch .., hmode,
    ChipState.regWrite_clockBase .., ChipState.regWrite_firstChannel ..⟩
  rw [ChipState.clearMask_reg, ChipState.regWrite_reg]
  simp only [eq_comm]

end Sys2Proof.Machine
end

section
/-!
O15 and O40: WRDIRECT and `wrreg` are the port pair (40_port_protocol.md rule R84, 30_encoding.md rule R69). Both
lead to `State.registerWritten`.
-/

namespace Sys2Proof.Machine

/-- A byte up to 15 is the register index it narrows to. -/
theorem setWidth_narrowToLatch {r : Byte} (hr : r.toNat ≤ 15) : (narrowToLatch r).setWidth 8 = r := by
  apply BitVec.eq_of_toNat_eq
  rw [BitVec.toNat_setWidth, narrowToLatch_toNat]
  omega

/-- A register index of 4 bits, as a byte, is one that WRDIRECT accepts. -/
theorem setWidth_toNat_le_15 (i : RegIndex) : (i.setWidth 8 : Byte).toNat ≤ 15 := by
  have := i.isLt
  rw [BitVec.toNat_setWidth]
  omega

section PortPair

variable {s : State} (h : s.Ready) {r : Byte} (hr : r.toNat ≤ 15) (v : Byte)
include h hr

theorem exec_wrdirect_registerWritten : exec (.wrdirect r v) s = .next (s.registerWritten (narrowToLatch r) v) :=
  execWrdirect_accepted h hr v

theorem execAll_portPair : execAll [.wrctrl r, .wrdata v] s = .next (s.registerWritten (narrowToLatch r) v) := by
  have hpair := execAll_wrctrl_wrdata h (narrowToLatch r) v []
  rwa [setWidth_narrowToLatch hr] at hpair

end PortPair

/-- Settles O15: all three ways lead to `State.registerWritten`, whose latch is the register. -/
theorem wrdirectIsThePortPair : Obligations.WrdirectIsThePortPair := by
  unfold Obligations.WrdirectIsThePortPair
  intro s r v h
  refine ⟨fun hr => ⟨_, exec_wrdirect_registerWritten h hr v, execAll_portPair h hr v, ?_, ?_⟩,
    fun hr => execWrdirect_rejected h hr v⟩
  · exact execWrdata_ready (h.withChip (s.chip.setLatch (narrowToLatch r))) v
  · rw [State.registerWritten_latch h, narrowToLatch_toNat]
    omega

/-- Settles O40: each expansion of rule R69 is run by the equations of its operations. -/
theorem pseudoOperationsExpandToTheirEffect : Obligations.PseudoOperationsExpandToTheirEffect := by
  unfold Obligations.PseudoOperationsExpandToTheirEffect
  refine ⟨fun r v hr => ⟨_, if_pos (decide_eq_true hr), fun s h => ?_⟩,
    fun r v hr => if_neg (by simp [directAccepted]; omega), fun r => ⟨_, rfl, fun s h => ?_⟩, ⟨_, rfl, fun s h => ?_⟩⟩
  · rw [execAll_portPair h hr, exec_wrdirect_registerWritten h hr]
  · have hselect : exec (.wrctrl (r.setWidth 8)) s = .next (s.withChip (s.chip.setLatch r)) := by
      rw [exec, execWrctrl_ready h, narrowToLatch_setWidth]
    have hread : exec .rddata (s.withChip (s.chip.setLatch r)) =
        .next ((s.withChip (s.chip.setLatch r)).ret (s.chip.reg r)) := execRddata_ready (h.withChip _)
    rw [execAll_cons_next hselect]
    exact execAll_cons_next hread []
  · have hflush : exec .setsyncFlush s = .next s.flush := execSetsyncFlush_ready h
    rw [hflush]
    exact execAll_cons_next hflush []

end Sys2Proof.Machine
end

section
/-!
O17: a register write settles the chip, so the same write again changes nothing (20_memory.md rule R47).
-/

namespace Sys2Proof.Machine

theorem ChipState.ext_fields {c d : ChipState} (registers : ∀ j, c.reg j = d.reg j) (latch : c.latch = d.latch)
    (syncMode : c.syncMode = d.syncMode) (clockBase : c.clockBase = d.clockBase)
    (firstChannel : c.firstChannel = d.firstChannel) (changedMask : c.changedMask = d.changedMask)
    (envelopePeriod : c.envelopePeriod = d.envelopePeriod) (envelopeCounter : c.envelopeCounter = d.envelopeCounter)
    (envelopePhase : c.envelopePhase = d.envelopePhase) : c = d := by
  have hregisters := registers_ext_of_reg registers
  cases c
  cases d
  simp_all

section RegWrite

variable (c : ChipState) (i : RegIndex) (v : Byte)

theorem ChipState.regWrite_registers_twice :
    ((c.regWrite i v).regWrite i v).registers = (c.regWrite i v).registers := by
  refine registers_ext_of_reg fun j => ?_
  rw [ChipState.regWrite_reg, ChipState.regWrite_reg]
  split <;> rfl

/-- The marks, the period and the timer follow from the registers, so the same write adds nothing to what it left. -/
theorem ChipState.regWrite_regWrite : (c.regWrite i v).regWrite i v = c.regWrite i v := by
  have hregs := c.regWrite_registers_twice i v
  apply ChipState.ext_fields
  case registers => exact ChipState.reg_congr hregs
  case changedMask =>
    rw [ChipState.regWrite_mask_self, ChipState.dirty_congr hregs, ChipState.regWrite_mask_self c, BitVec.or_assoc,
      BitVec.or_self]
  case envelopePeriod =>
    rw [ChipState.regWrite_period_self, ChipState.envPeriodField_congr hregs, ChipState.regWrite_clockBase,
      ChipState.regWrite_period_self c]
    split <;> rfl
  case envelopeCounter =>
    rw [ChipState.regWrite_counter, ChipState.regWrite_counter]
    split <;> rfl
  case envelopePhase =>
    rw [ChipState.regWrite_phase, ChipState.regWrite_phase]
    split <;> rfl
  all_goals simp

/-- A register write reads nothing of the mask. -/
theorem ChipState.clearMask_regWrite_clearMask : (c.clearMask.regWrite i v).clearMask = (c.regWrite i v).clearMask := by
  unfold ChipState.regWrite ChipState.envelopeWriteEffect
  dsimp only
  split
  · rfl
  · split <;> rfl

end RegWrite

section Settled

variable {s : State} {c : ChipState}

theorem State.withChip_flushIfAsync_chip_async (hn : s.notifying = false) (hm : c.syncMode = .async) :
    (s.withChip c).flushIfAsync.chip = c.clearMask := by
  rw [State.flushIfAsync_async (s := s.withChip c) hn hm, State.withChip_chip]

theorem State.withChip_flushIfAsync_chip_sync (hm : c.syncMode = .sync) : (s.withChip c).flushIfAsync.chip = c := by
  rw [State.flushIfAsync_sync (s := s.withChip c) hm, State.withChip_chip]

end Settled

/-- Settles O17: in Sync mode the second write is `regWrite_regWrite`; in Async mode the mask is emptied after each. -/
theorem repeatedWriteLeavesTheChipAsOne : Obligations.RepeatedWriteLeavesTheChipAsOne := by
  unfold Obligations.RepeatedWriteLeavesTheChipAsOne
  intro s v h
  have hready : (s.withChip (s.chip.regWrite s.chip.latch v)).flushIfAsync.Ready := (h.withChip _).flushIfAsync
  refine ⟨_, _, execWrdata_ready h v, execWrdata_ready hready v, ?_⟩
  rw [State.flushIfAsync_latch (h.withChip _).2, State.withChip_chip, ChipState.regWrite_latch]
  cases hm : s.chip.syncMode with
  | sync =>
    have hsync : (s.chip.regWrite s.chip.latch v).syncMode = .sync := (ChipState.regWrite_syncMode ..).trans hm
    rw [State.withChip_flushIfAsync_chip_sync hsync, ChipState.regWrite_regWrite,
      State.withChip_flushIfAsync_chip_sync hsync]
  | async =>
    have hasync : (s.chip.regWrite s.chip.latch v).syncMode = .async := (ChipState.regWrite_syncMode ..).trans hm
    have hasync' : ((s.chip.regWrite s.chip.latch v).clearMask.regWrite s.chip.latch v).syncMode = .async :=
      (ChipState.regWrite_syncMode ..).trans hasync
    rw [State.withChip_flushIfAsync_chip_async h.2 hasync, State.withChip_flushIfAsync_chip_async hready.2 hasync',
      ChipState.clearMask_regWrite_clearMask, ChipState.regWrite_regWrite]

end Sys2Proof.Machine
end

section
/-!
O18: the channel map of a register write, channel by channel (40_port_protocol.md rule R83).
-/

namespace Sys2Proof.Machine

/-- Every register but R13 marks the same channels in every chip. -/
theorem ChipState.dirty_of_ne (c d : ChipState) {i : RegIndex} (hi : i ≠ 13) : c.dirty i = d.dirty i := by
  unfold ChipState.dirty
  split
  case h_12 h13 => exact absurd (BitVec.eq_of_toNat_eq h13) hi
  all_goals rfl

/-- The rows of rule R83 but that of R13, read off one chip. -/
theorem dirty_rows : ∀ (i : RegIndex) (k : Fin 6), i ≠ 13 →
    (((chipAfterReset 0 0).dirty i).getLsbD k.val = true ↔
      (i.toNat < 6 ∧ k.val = i.toNat / 2) ∨ (i = 6 ∧ 3 ≤ k.val) ∨ i = 7 ∨
      (8 ≤ i.toNat ∧ i.toNat ≤ 10 ∧ k.val % 3 = i.toNat - 8)) := by
  decide

/-- The channel map `dirty(i)` as the table of rule R83. -/
theorem ChipState.dirty_getLsbD (c : ChipState) (i : RegIndex) (k : Fin 6) :
    (c.dirty i).getLsbD k.val = true ↔
      (i.toNat < 6 ∧ k.val = i.toNat / 2) ∨ (i = 6 ∧ 3 ≤ k.val) ∨ i = 7 ∨
      (8 ≤ i.toNat ∧ i.toNat ≤ 10 ∧ k.val % 3 = i.toNat - 8) ∨ (i = 13 ∧ c.usesEnvelope (soundsOn k) = true) := by
  by_cases hi : i = 13
  · subst hi
    rw [show c.dirty 13 = c.envelopeChannels from rfl, ChipState.envelopeChannels_getLsbD]
    simp
  · rw [c.dirty_of_ne (chipAfterReset 0 0) hi, dirty_rows i k hi]
    simp only [hi, false_and, or_false]

/-- R13's own write leaves the volume registers, so the channels in envelope mode are those before it. -/
theorem ChipState.regWrite_13_usesEnvelope (c : ChipState) (v : Byte) (n : Fin 3) :
    (c.regWrite 13 v).usesEnvelope n = c.usesEnvelope n := by
  have hne : (13 : RegIndex) ≠ volumeIndex n := by
    revert n
    decide
  rw [ChipState.usesEnvelope, ChipState.regWrite_reg, if_neg hne]
  rfl

/-- In Sync mode a WRDIRECT up to 15 ends with the register write. -/
theorem exec_wrdirect_sync {s : State} (h : s.Ready) (hm : s.chip.syncMode = .sync) (i : RegIndex) (v : Byte) :
    exec (.wrdirect (i.setWidth 8) v) s = .next (s.withChip ((s.chip.setLatch i).regWrite i v)) := by
  have hsync : ((s.chip.setLatch i).regWrite i v).syncMode = .sync := (ChipState.regWrite_syncMode ..).trans hm
  rw [exec_wrdirect_registerWritten h (setWidth_toNat_le_15 i), narrowToLatch_setWidth, State.registerWritten]
  exact congrArg _ (State.flushIfAsync_sync hsync)

/-- Settles O18: the marks join the mask (`regWrite_mask_self`), and each is a row of rule R83's table. -/
theorem channelsMarkedByARegisterWrite : Obligations.ChannelsMarkedByARegisterWrite := by
  unfold Obligations.ChannelsMarkedByARegisterWrite
  intro s i v k h hm
  refine ⟨_, exec_wrdirect_sync h hm i v, ?_⟩
  rw [State.withChip_chip, ChipState.regWrite_mask_self, BitVec.getLsbD_or, Bool.or_eq_true, ChipState.dirty_getLsbD]
  by_cases hi : i = 13
  · subst hi
    rw [ChipState.regWrite_13_usesEnvelope]
    rfl
  · simp only [hi, false_and, ChipState.setLatch_changedMask]

end Sys2Proof.Machine
end

section
/-!
O19: R11 and R12 set the envelope period (42_envelope.md rule R121).
-/

namespace Sys2Proof.Machine

theorem envPeriodOf_eq (ep clockBase : Nat) :
    envPeriodOf ep clockBase = if clockBase = 0 then 0 else max 1 (1000000 * max 1 ep / clockBase) := by
  have hone : (if ep = 0 then 1 else ep) = max 1 ep := by split <;> omega
  rw [envPeriodOf, hone, usPerSecond]

theorem ChipState.envPeriodField_toNat (c : ChipState) :
    c.envPeriodField.toNat = 256 * (c.reg 12).toNat + (c.reg 11).toNat := by
  rw [ChipState.envPeriodField, append_toNat]
  omega

/-- A direct write of R11 or R12 recomputes the period from the pair after it, and leaves the timer and the rest. -/
theorem exec_wrdirect_periodRegister {s : State} (h : s.Ready) {i : RegIndex} (hi : i = 11 ∨ i = 12) (v : Byte) :
    ∃ t, exec (.wrdirect (i.setWidth 8) v) s = .next t ∧
      t.chip.envelopePeriod = envPeriodOf (256 * (if i = 12 then v else s.chip.reg 12).toNat +
        (if i = 11 then v else s.chip.reg 11).toNat) s.chip.clockBase ∧
      t.chip.envelopeCounter = s.chip.envelopeCounter ∧ t.chip.envelopePhase = s.chip.envelopePhase ∧
      t.chip.reg i = v ∧ ∀ j, j ≠ i → t.chip.reg j = s.chip.reg j := by
  have hne : i ≠ 13 := by
    rintro rfl
    revert hi
    decide
  obtain ⟨t, ht⟩ := exec_completes h (.wrdirect (i.setWidth 8) v)
  have hdone := exec_next_completed ht
  have hchip : s.chip.updatedBy (.wrdirect (i.setWidth 8) v) = (s.chip.setLatch i).regWrite i v := by
    rw [ChipState.updatedBy_wrdirect_accepted _ (setWidth_toNat_le_15 i), narrowToLatch_setWidth]
  refine ⟨t, ht, ?_, ?_, ?_, ?_, ?_⟩
  · rw [hdone.envelopePeriod, hchip, ChipState.regWrite_period_self, if_pos hi, ChipState.envPeriodField_toNat,
      ChipState.regWrite_reg, ChipState.regWrite_reg]
    rfl
  · rw [hdone.envelopeCounter, hchip, ChipState.regWrite_counter, if_neg hne]
    rfl
  · rw [hdone.envelopePhase, hchip, ChipState.regWrite_phase, if_neg hne]
    rfl
  · rw [hdone.reg, hchip, ChipState.regWrite_reg, if_pos rfl]
  · intro j hj
    rw [hdone.reg, hchip, ChipState.regWrite_reg, if_neg hj.symm]
    rfl

/-- Settles O19: the two direct writes are the two cases of `exec_wrdirect_periodRegister`. -/
theorem envelopePeriodFollowsItsRegisters : Obligations.EnvelopePeriodFollowsItsRegisters := by
  unfold Obligations.EnvelopePeriodFollowsItsRegisters
  intro s v h
  constructor
  · obtain ⟨t, ht, hp, hrest⟩ := exec_wrdirect_periodRegister h (.inl rfl) v
    exact ⟨t, ht, hp.trans (envPeriodOf_eq ..), hrest⟩
  · obtain ⟨t, ht, hp, hrest⟩ := exec_wrdirect_periodRegister h (.inr rfl) v
    exact ⟨t, ht, hp.trans (envPeriodOf_eq ..), hrest⟩

end Sys2Proof.Machine
end

section
/-!
O22 and O23: the auxiliary noise generator (41_tone_noise.md rule R109). A step is linear over XOR, and 17 steps are
three steps XOR none; so a power of the step is a combination of the first 17, given by the bits of a word, and the
powers with exponent 2^k come by squaring. The 17th squaring gives the step itself: the period divides the prime 2^17 - 1.
-/

namespace Sys2Proof.Machine

/-! #### One step -/

theorem noiseRun_eq_iterate (n : Nat) (s : NoiseState) : noiseRun n s = noiseStep^[n] s := by
  induction n generalizing s with
  | zero => rfl
  | succ n ih => exact ih (noiseStep s)

theorem xor_toNat_one_bit : ∀ a b : BitVec 1, (a ^^^ b).toNat = (a.toNat + b.toNat) % 2 := by
  decide

theorem extractLsb'_bit (s : NoiseState) (i : Nat) : (s.extractLsb' i 1).toNat = s.toNat / 2 ^ i % 2 := by
  rw [BitVec.extractLsb'_toNat, Nat.shiftRight_eq_div_pow, Nat.pow_one]

theorem noiseStep_toNat (s : NoiseState) :
    (noiseStep s).toNat = (s.toNat % 2 + s.toNat / 8 % 2) % 2 * 65536 + s.toNat / 2 := by
  have hs := s.isLt
  have hlow : s.toNat / 2 < 2 ^ 16 := by omega
  have hbit : ((s.extractLsb' 0 1 ^^^ s.extractLsb' 3 1).setWidth 17 <<< 16).toNat =
      ((s.toNat % 2 + s.toNat / 8 % 2) % 2) <<< 16 := by
    have hlt : (s.toNat % 2 + s.toNat / 8 % 2) % 2 < 2 := Nat.mod_lt _ (by decide)
    rw [BitVec.toNat_shiftLeft, BitVec.toNat_setWidth, xor_toNat_one_bit, extractLsb'_bit, extractLsb'_bit]
    simp only [Nat.shiftLeft_eq, Nat.reducePow, Nat.div_one]
    generalize (s.toNat % 2 + s.toNat / 8 % 2) % 2 = bit at hlt
    omega
  rw [noiseStep, BitVec.toNat_or, hbit, BitVec.toNat_ushiftRight, Nat.shiftRight_eq_div_pow, Nat.pow_one,
    ← Nat.shiftLeft_add_eq_or_of_lt hlow, Nat.shiftLeft_eq]

theorem feedback_eq_zero_or_one (n : Nat) : (n % 2 + n / 8 % 2) % 2 = 0 ∨ (n % 2 + n / 8 % 2) % 2 = 1 :=
  Nat.mod_two_eq_zero_or_one _

theorem noiseStep_eq_zero {s : NoiseState} (h : noiseStep s = 0) : s = 0 := by
  have hs := noiseStep_toNat s
  rw [h] at hs
  change 0 = _ at hs
  apply BitVec.eq_of_toNat_eq
  change s.toNat = 0
  obtain hbit | hbit := feedback_eq_zero_or_one s.toNat <;> rw [hbit] at hs <;> omega

theorem noiseSeed_ne_zero : noiseSeed ≠ 0 := by
  have hlt := Config.noiseSeedIndex.isLt
  intro h
  have hnat := congrArg BitVec.toNat h
  simp [noiseSeed] at hnat
  omega

/-- Settles O22: the step in numbers, read at 0 for the rest. -/
theorem noiseStepShiftsInTheFeedback : Obligations.NoiseStepShiftsInTheFeedback := by
  unfold Obligations.NoiseStepShiftsInTheFeedback
  exact ⟨fun s => ⟨noiseStep_toNat s, mt noiseStep_eq_zero⟩, noiseSeed_ne_zero⟩

/-! #### The step is linear -/

/-- Below the top the bits move down one place; the feedback comes in at the top. -/
theorem noiseStep_getLsbD (s : NoiseState) {i : Nat} (hi : i < 17) :
    (noiseStep s).getLsbD i = if i = 16 then s.getLsbD 0 ^^ s.getLsbD 3 else s.getLsbD (i + 1) := by
  by_cases htop : i = 16
  · subst htop
    simp [noiseStep]
  · have hlt : i < 16 := by omega
    simp [noiseStep, htop, hlt, Nat.add_comm]

theorem noiseStep_xor (a b : NoiseState) : noiseStep (a ^^^ b) = noiseStep a ^^^ noiseStep b := by
  refine BitVec.eq_of_getLsbD_eq fun i hi => ?_
  rw [BitVec.getLsbD_xor, noiseStep_getLsbD _ hi, noiseStep_getLsbD _ hi, noiseStep_getLsbD _ hi]
  split <;> simp [Bool.xor_left_comm]

theorem noiseStep_zero : noiseStep 0#17 = 0#17 := by
  decide

theorem noiseStep_injective : Function.Injective noiseStep := by
  intro a b hab
  have hzero : noiseStep (a ^^^ b) = 0 := by
    rw [noiseStep_xor, hab, BitVec.xor_self]
    rfl
  exact BitVec.xor_eq_zero_iff.mp (noiseStep_eq_zero hzero)

/-- The bits of a state are the output bits of the 17 states from it on. -/
theorem iterate_noiseStep_getLsbD (s : NoiseState) (n : Nat) {i : Nat} (hi : i < 17) :
    (noiseStep^[n] s).getLsbD i = (noiseStep^[n + i] s).getLsbD 0 := by
  induction i generalizing n with
  | zero => rfl
  | succ i ih =>
    rw [show n + (i + 1) = n + 1 + i by omega, ← ih (n + 1) (by omega), Function.iterate_succ_apply',
      noiseStep_getLsbD _ (by omega), if_neg (by omega)]

/-- 17 steps are three steps XOR none. -/
theorem iterate_noiseStep_17 (s : NoiseState) : noiseStep^[17] s = s ^^^ noiseStep^[3] s := by
  refine BitVec.eq_of_getLsbD_eq fun i hi => ?_
  have htop : (noiseStep^[17 + i] s).getLsbD 0 = ((noiseStep^[i] s).getLsbD 0 ^^ (noiseStep^[i] s).getLsbD 3) := by
    rw [show 17 + i = (i + 1) + 16 by omega, ← iterate_noiseStep_getLsbD s (i + 1) (by decide),
      Function.iterate_succ_apply', noiseStep_getLsbD _ (by decide), if_pos rfl]
  rw [BitVec.getLsbD_xor, iterate_noiseStep_getLsbD s 17 hi, iterate_noiseStep_getLsbD s 3 hi, htop,
    iterate_noiseStep_getLsbD s i (i := 3) (by decide), Nat.add_comm 3]
  congr 1
  exact (iterate_noiseStep_getLsbD s 0 hi).symm ▸ by rw [Nat.zero_add]

/-! #### Combinations of the first 17 states -/

/-- The XOR of the states after `i` steps from `s`, over the bits `i` below `n` that `q` has. -/
def stepSum (q s : NoiseState) : Nat → NoiseState
  | 0 => 0#17
  | n + 1 => stepSum q s n ^^^ if q.getLsbD n then noiseStep^[n] s else 0#17

/-- The combination of the first 17 states from `s` that the bits of `q` name. -/
def combine (q s : NoiseState) : NoiseState := stepSum q s 17

theorem xor_xor_xor_comm (a b c d : NoiseState) : (a ^^^ b) ^^^ (c ^^^ d) = (a ^^^ c) ^^^ (b ^^^ d) := by
  ac_rfl

theorem stepSum_xor (p q s : NoiseState) (n : Nat) : stepSum (p ^^^ q) s n = stepSum p s n ^^^ stepSum q s n := by
  induction n with
  | zero => simp [stepSum]
  | succ n ih =>
    rw [stepSum, stepSum, stepSum, ih, xor_xor_xor_comm, BitVec.getLsbD_xor]
    cases p.getLsbD n <;> cases q.getLsbD n <;> simp

theorem stepSum_zero (s : NoiseState) (n : Nat) : stepSum 0#17 s n = 0#17 := by
  induction n with
  | zero => rfl
  | succ n ih => simp [stepSum, ih]

/-- Moving the bits of `q` up one place takes one more step. -/
theorem stepSum_shiftLeft (q s : NoiseState) {n : Nat} (hn : n < 17) :
    stepSum (q <<< 1) s (n + 1) = noiseStep (stepSum q s n) := by
  induction n with
  | zero => simp [stepSum, noiseStep_zero]
  | succ n ih =>
    have hbit : (q <<< 1).getLsbD (n + 1) = q.getLsbD n := by
      simp [hn, BitVec.getLsbD_eq_getElem (show n < 17 by omega)]
    rw [stepSum, ih (by omega), stepSum, noiseStep_xor, hbit, apply_ite noiseStep, noiseStep_zero,
      Function.iterate_succ_apply']

/-- One more step, on the bits: up one place, and a bit moved out at the top comes back at places 0 and 3. -/
def stepBits (q : NoiseState) : NoiseState := q <<< 1 ^^^ if q.getLsbD 16 then 9#17 else 0#17

theorem combine_9 (s : NoiseState) : combine 9#17 s = s ^^^ noiseStep^[3] s := by
  simp [combine, stepSum]

theorem combine_stepBits (q s : NoiseState) : combine (stepBits q) s = noiseStep (combine q s) := by
  have hlow : stepSum (q <<< 1) s 17 = noiseStep (stepSum q s 16) := stepSum_shiftLeft q s (by decide)
  have htop : stepSum (if q.getLsbD 16 then 9#17 else 0#17) s 17 =
      noiseStep (if q.getLsbD 16 then noiseStep^[16] s else 0#17) := by
    split
    · rw [← Function.iterate_succ_apply' noiseStep, iterate_noiseStep_17]
      exact combine_9 s
    · rw [stepSum_zero, noiseStep_zero]
  rw [combine, stepBits, stepSum_xor, hlow, htop, ← noiseStep_xor]
  rfl

theorem combine_iterate_stepBits (q s : NoiseState) (n : Nat) :
    combine (stepBits^[n] q) s = noiseStep^[n] (combine q s) := by
  induction n with
  | zero => rfl
  | succ n ih => rw [Function.iterate_succ_apply', combine_stepBits, ih, Function.iterate_succ_apply']

/-- The bits of one combination after another, from the bits below `n` of the first. -/
def composeBits (p q : NoiseState) : Nat → NoiseState
  | 0 => 0#17
  | n + 1 => composeBits p q n ^^^ if p.getLsbD n then stepBits^[n] q else 0#17

theorem combine_composeBits (p q s : NoiseState) (n : Nat) :
    combine (composeBits p q n) s = stepSum p (combine q s) n := by
  induction n with
  | zero => exact stepSum_zero s 17
  | succ n ih =>
    rw [composeBits, combine, stepSum_xor, stepSum]
    congr 1
    split
    · exact combine_iterate_stepBits q s n
    · exact stepSum_zero s 17

/-- The bits of a combination taken twice. -/
def squareBits (q : NoiseState) : NoiseState := composeBits q q 17

theorem combine_squareBits (q s : NoiseState) : combine (squareBits q) s = combine q (combine q s) :=
  combine_composeBits q q s 17

/-! #### The powers of the step with exponent 2^k -/

/-- The bits of 1, 2, 4, …, 2^17 steps; each word is the square of the one before it (`doublings_square`). -/
def doublings : List NoiseState :=
  [0x00002, 0x00004, 0x00010, 0x00100, 0x10000, 0x08012, 0x12104, 0x19202, 0x1A484, 0x1F24A, 0x1EEC4, 0x1AB78,
   0x0A660, 0x1265A, 0x0830C, 0x02042, 0x00204, 0x00002]

theorem doublings_square : doublings.IsChain (fun q r => squareBits q = r) := by
  decide

/-- Along a chain of squares the number of steps doubles. -/
theorem combine_getLast_of_chain {q : NoiseState} {l : List NoiseState} {m : Nat}
    (hchain : (q :: l).IsChain (fun q r => squareBits q = r)) (hq : ∀ s, combine q s = noiseStep^[m] s)
    (s : NoiseState) : combine ((q :: l).getLast (List.cons_ne_nil q l)) s = noiseStep^[m * 2 ^ l.length] s := by
  induction l generalizing q m with
  | nil => simpa using hq s
  | cons r l ih =>
    obtain ⟨hsquare, hrest⟩ := List.isChain_cons_cons.mp hchain
    have hr (s : NoiseState) : combine r s = noiseStep^[m * 2] s := by
      rw [← hsquare, combine_squareBits, hq, hq, ← Function.iterate_add_apply, Nat.mul_two]
    rw [List.getLast_cons (List.cons_ne_nil r l), ih hrest hr, List.length_cons, Nat.mul_assoc, ← Nat.pow_succ']

theorem combine_2 (s : NoiseState) : combine 2#17 s = noiseStep s := by
  simp [combine, stepSum]

/-- 2^17 steps are one step. -/
theorem iterate_noiseStep_two_pow (s : NoiseState) : noiseStep^[131072] s = noiseStep s := by
  have hlast := combine_getLast_of_chain doublings_square (m := 1) combine_2 s
  exact hlast.symm.trans (combine_2 s)

/-! #### The period -/

theorem iterate_noiseStep_period (s : NoiseState) : noiseStep^[131071] s = s := by
  apply noiseStep_injective
  rw [← Function.iterate_succ_apply' noiseStep]
  exact iterate_noiseStep_two_pow s

/-- Only 0 is left alone by a step: equal neighbours make all bits equal, and all ones feed back a 0. -/
theorem eq_zero_of_noiseStep_eq {s : NoiseState} (h : noiseStep s = s) : s = 0 := by
  have hs := noiseStep_toNat s
  rw [h] at hs
  have hlt := s.isLt
  apply BitVec.eq_of_toNat_eq
  change s.toNat = 0
  obtain hbit | hbit := feedback_eq_zero_or_one s.toNat <;> rw [hbit] at hs <;> omega

theorem prime_131071 : Nat.Prime 131071 := by
  norm_num

/-- Settles O23: a shorter return would leave, with the prime period, a state that one step leaves alone. -/
theorem noiseSequenceHasFullPeriod : Obligations.NoiseSequenceHasFullPeriod := by
  unfold Obligations.NoiseSequenceHasFullPeriod
  intro s hs
  refine ⟨(noiseRun_eq_iterate _ s).trans (iterate_noiseStep_period s), fun m hpos hlt hm => hs ?_⟩
  have hperiod : Function.IsPeriodicPt noiseStep 131071 s := iterate_noiseStep_period s
  have hshort : Function.IsPeriodicPt noiseStep m s := (noiseRun_eq_iterate m s).symm.trans hm
  have hcoprime : m.gcd 131071 = 1 :=
    Nat.coprime_comm.mp ((Nat.Prime.coprime_iff_not_dvd prime_131071).mpr (Nat.not_dvd_of_pos_of_lt hpos hlt))
  have hone := hshort.gcd hperiod
  rw [hcoprime] at hone
  exact eq_zero_of_noiseStep_eq hone

end Sys2Proof.Machine
end

section
/-!
O20 and O21: the register fields as numbers, and the values of a record (41_tone_noise.md rules R100 to R107,
43_sync_controller.md rule R151).
-/

namespace Sys2Proof.Machine

theorem effectivePeriod_eq (period : Nat) : effectivePeriod period = max 1 period := by
  unfold effectivePeriod
  split <;> omega

theorem getLsbD_iff {w : Nat} (v : BitVec w) (i : Nat) : v.getLsbD i = true ↔ v.toNat / 2 ^ i % 2 = 1 := by
  rw [BitVec.getLsbD, Nat.testBit_eq_decide_div_mod_eq, decide_eq_true_iff]

section Fields

variable (c : ChipState)

theorem ChipState.tonePeriod_toNat (n : Fin 3) :
    (c.tonePeriod n).toNat = (c.reg (coarseIndex n)).toNat % 16 * 256 + (c.reg (fineIndex n)).toNat := by
  rw [ChipState.tonePeriod, append_toNat, BitVec.toNat_setWidth]
  rfl

theorem ChipState.noisePeriod_toNat : c.noisePeriod.toNat = (c.reg 6).toNat % 32 := by
  rw [ChipState.noisePeriod, BitVec.toNat_setWidth]

theorem ChipState.toneFreq_eq (n : Fin 3) : c.toneFreq n =
    c.clockBase / max 1 ((c.reg (coarseIndex n)).toNat % 16 * 256 + (c.reg (fineIndex n)).toNat) := by
  rw [ChipState.toneFreq, effectivePeriod_eq, ChipState.tonePeriod_toNat]

theorem ChipState.noiseFreq_eq : c.noiseFreq = c.clockBase / max 1 ((c.reg 6).toNat % 32) := by
  rw [ChipState.noiseFreq, effectivePeriod_eq, ChipState.noisePeriod_toNat]

/-- Bit 4 of the volume register chooses between the envelope's level and the low 4 bits. -/
theorem ChipState.level_toNat (n : Fin 3) : (c.level n).toNat =
    if (c.reg (volumeIndex n)).toNat / 16 % 2 = 1 then (envTable ((c.reg 13).setWidth 4) c.envelopePhase).toNat
    else (c.reg (volumeIndex n)).toNat % 16 := by
  have huses : c.usesEnvelope n = true ↔ (c.reg (volumeIndex n)).toNat / 16 % 2 = 1 := getLsbD_iff _ 4
  rw [ChipState.level, apply_ite BitVec.toNat]
  refine if_congr huses rfl ?_
  rw [ChipState.fixedLevel, BitVec.toNat_setWidth]

theorem ChipState.enabled_iff (k : Fin 6) : c.enabled k = true ↔ (c.reg 7).toNat / 2 ^ k.val % 2 = 0 := by
  rw [ChipState.enabled, Bool.not_eq_true', ← Bool.not_eq_true, getLsbD_iff]
  exact Nat.mod_two_ne_one

end Fields

/-- Settles O20: the period is at most 12 bits wide, and the divisor is it or 1. -/
theorem tonePeriodZeroCountsAsOne : Obligations.TonePeriodZeroCountsAsOne := by
  unfold Obligations.TonePeriodZeroCountsAsOne
  intro c n tp divisor
  have htp : (c.tonePeriod n).toNat = tp := c.tonePeriod_toNat n
  have hlt : tp < 4096 := htp ▸ (c.tonePeriod n).isLt
  have hfreq : c.toneFreq n = c.clockBase / divisor := by rw [ChipState.toneFreq, htp]; rfl
  have hdivisor : 1 ≤ divisor ∧ divisor ≤ 4095 ∧ (tp = 0 → divisor = 1) ∧ (tp = 1 → divisor = 1) := by
    simp only [divisor]
    split <;> omega
  obtain ⟨hpos, hle, hzero, hone⟩ := hdivisor
  refine ⟨hpos, hle, hfreq, fun h => ?_, fun h => ?_, ?_⟩
  · rw [hfreq, hzero h, Nat.div_one]
  · rw [hfreq, hone h, Nat.div_one]
  · rw [hfreq]
    exact Nat.div_le_self _ _

/-- A channel that alone is pending is the whole order of the flush. -/
theorem filter_twoPow (k : Fin 6) : (List.finRange 6).filter (fun j => (BitVec.twoPow 6 k.val).getLsbD j.val) = [k] := by
  revert k
  decide

/-- Settles O21: the one record is that of the channel, and its fields are the lemmas above. -/
theorem flushCarriesTheDerivedValues : Obligations.FlushCarriesTheDerivedValues := by
  unfold Obligations.FlushCarriesTheDerivedValues
  intro s k h hmask c n tp np volume
  have hrecords : s.chip.pendingRecords = [s.chip.record k] := by
    rw [ChipState.pendingRecords_eq, hmask, filter_twoPow, List.map_singleton]
  refine ⟨c.record k, ?_, rfl, ?_, c.level_toNat (soundsOn k), c.enabled_iff k⟩
  · rw [exec_setsyncFlush_ready h, hrecords]
    rfl
  · rw [apply_ite (c.clockBase / ·)]
    exact if_congr Iff.rfl (c.toneFreq_eq (soundsOn k)) c.noiseFreq_eq

end Sys2Proof.Machine
end

section
/-!
O29, O32, O33 and O34: SETSYNC with a mode, and what RESET leaves (43_sync_controller.md rules R153 and R154,
70_reset_and_hazards.md rule R190).
-/

namespace Sys2Proof.Machine

theorem State.setModeAndFlush_eq {s : State} (hn : s.notifying = false) (mode : SyncMode) :
    s.setModeAndFlush mode = { s with
      chip := (s.chip.setMode mode).clearMask
      trace := s.trace ++ s.chip.pendingRecords } := by
  rw [State.setModeAndFlush, State.flush_eq (s := s.withChip (s.chip.setMode mode)) hn]
  rfl

/-- Settles O29: both are the flush after the mode is set. -/
theorem setsyncSetsTheModeAndFlushes : Obligations.SetsyncSetsTheModeAndFlushes := by
  unfold Obligations.SetsyncSetsTheModeAndFlushes
  intro s h records
  have hrecords : records = s.chip.pendingRecords := s.chip.pendingRecords_eq.symm
  rw [hrecords]
  constructor
  · rw [exec, execSetsyncAsync_ready h, State.setModeAndFlush_eq h.2]
    rfl
  · rw [exec, execSetsyncSync_ready h, State.setModeAndFlush_eq h.2]
    rfl

theorem clockBaseOf_eq (clockHz : Nat) : clockBaseOf clockHz = clockHz / 16 := rfl

/-- The envelope period of EP = 0, which RESET leaves in R11 and R12. -/
theorem chipAfterReset_envelopePeriod (clockHz first : Nat) : (chipAfterReset clockHz first).envelopePeriod =
    if clockHz < 16 then 0 else max 1 (1000000 / (clockHz / 16)) := by
  show envPeriodOf 0 (clockBaseOf clockHz) = _
  rw [envPeriodOf_eq, clockBaseOf_eq]
  exact if_congr (by omega) rfl rfl

/-- Settles O32: the chip left is that of rule R190, field by field. -/
theorem resetSetsEveryField : Obligations.ResetSetsEveryField := by
  unfold Obligations.ResetSetsEveryField
  intro s clockHz first hn
  exact ⟨chipAfterReset clockHz first, execReset_idle hn clockHz first, chipAfterReset_reg clockHz first, rfl, rfl, rfl, rfl,
    rfl, rfl, rfl, chipAfterReset_envelopePeriod clockHz first⟩

section AfterReset

variable (clockHz first : Nat)

theorem chipAfterReset_usesEnvelope (n : Fin 3) : (chipAfterReset clockHz first).usesEnvelope n = false := by
  rw [ChipState.usesEnvelope, chipAfterReset_reg]
  rfl

theorem chipAfterReset_envLevel : (chipAfterReset clockHz first).envLevel = 15 := by
  rw [ChipState.envLevel, ChipState.shape, chipAfterReset_reg]
  show envTable 0 0 = 15
  decide

theorem chipAfterReset_record (k : Fin 6) :
    (chipAfterReset clockHz first).record k = ⟨first + k.val, clockHz / 16, 0, true⟩ := by
  have hfrequency : (if k.val < 3 then (chipAfterReset clockHz first).toneFreq (soundsOn k)
      else (chipAfterReset clockHz first).noiseFreq) = clockHz / 16 := by
    rw [ChipState.toneFreq_eq, ChipState.noiseFreq_eq, chipAfterReset_reg, chipAfterReset_reg, chipAfterReset_reg]
    split <;> simp [chipAfterReset, clockBaseOf_eq]
  have hvolume : (chipAfterReset clockHz first).level (soundsOn k) = 0 := by
    rw [ChipState.level, chipAfterReset_usesEnvelope, ChipState.fixedLevel, chipAfterReset_reg]
    rfl
  have henabled : (chipAfterReset clockHz first).enabled k = true := by
    simp [ChipState.enabled]
  rw [ChipState.record, hfrequency, hvolume, henabled]
  rfl

end AfterReset

/-- Settles O33: every register of the chip RESET leaves is 0. -/
theorem resetSoundsEveryChannelAtTheClockBase : Obligations.ResetSoundsEveryChannelAtTheClockBase := by
  unfold Obligations.ResetSoundsEveryChannelAtTheClockBase
  intro s clockHz first hn
  exact ⟨_, execReset_idle hn clockHz first, chipAfterReset_record clockHz first, chipAfterReset_envLevel clockHz first,
    chipAfterReset_usesEnvelope clockHz first⟩

/-- The reset state's chip is the one that RESET leaves with the operands of assumption log 1. -/
theorem reset_chip : State.reset.chip = chipAfterReset Config.resetClockHz Config.resetFirstChannel := rfl

/-- Settles O34: RESET 2000000, 0 leaves the reset state's chip, whose fields are those of rule R190. -/
theorem resetStateIsTheSpecsStart : Obligations.ResetStateIsTheSpecsStart := by
  unfold Obligations.ResetStateIsTheSpecsStart
  refine ⟨fun s hn => ⟨_, execReset_idle hn 2000000 0, reset_chip.symm⟩, fun i => ?_, rfl, ?_, rfl, ⟨rfl, rfl⟩, rfl, rfl,
    rfl⟩
  · rw [reset_chip, chipAfterReset_reg]
  · rw [reset_chip, chipAfterReset_envelopePeriod]
    rfl

end Sys2Proof.Machine
end

section
/-!
O24: the closed form of ADVANCE is the catch-up loop (42_envelope.md rules R128 and R131).
-/

namespace Sys2Proof.Machine

/-- A phase step before `k` more is one more of them. -/
theorem phaseAfter_nextPhase (shape : Shape) (p : Phase) (k : Nat) :
    phaseAfter shape (nextPhase shape p) k = phaseAfter shape p (k + 1) := by
  induction k with
  | zero => rw [phaseAfter_zero, phaseAfter_succ, phaseAfter_zero]
  | succ k ih => rw [phaseAfter_succ, ih, ← phaseAfter_succ]

section EnvelopeStep

variable (c : ChipState)

theorem ChipState.envelopeStep_registers : c.envelopeStep.registers = c.registers := rfl

theorem ChipState.envelopeStep_envelopeCounter :
    c.envelopeStep.envelopeCounter = c.envelopeCounter - c.envelopePeriod := rfl

theorem ChipState.envelopeStep_changedMask :
    c.envelopeStep.changedMask = c.changedMask ||| c.envelopeChannels := rfl

end EnvelopeStep

/-- An ADVANCE 0 with nothing overdue keeps the chip. -/
theorem ChipState.advance_zero_of_lt {c : ChipState} (h : c.envelopeCounter < c.envelopePeriod) : c.advance 0 = c := by
  have hp : c.envelopePeriod ≠ 0 := by omega
  have hdue : c.stepsDue 0 = 0 := Nat.div_eq_of_lt h
  apply ChipState.ext_fields
  case registers => exact ChipState.reg_congr (c.advance_registers 0)
  case changedMask =>
    rw [ChipState.advance_mask c 0 hp, if_pos hdue]
    exact BitVec.or_zero
  case envelopeCounter => exact (c.advance_counter 0 hp).trans (Nat.mod_eq_of_lt h)
  case envelopePhase => rw [ChipState.advance_phase c 0 hp, hdue, phaseAfter_zero]
  all_goals simp

/-- One turn of the loop leaves what is overdue otherwise as it was. -/
theorem ChipState.envelopeStep_advance_zero {c : ChipState} (hp : c.envelopePeriod ≠ 0)
    (h : c.envelopePeriod ≤ c.envelopeCounter) : c.envelopeStep.advance 0 = c.advance 0 := by
  have hp' : c.envelopeStep.envelopePeriod ≠ 0 := hp
  have hdue : c.stepsDue 0 = c.envelopeStep.stepsDue 0 + 1 := Nat.div_eq_sub_div (Nat.pos_of_ne_zero hp) h
  have hchannels : c.envelopeStep.envelopeChannels = c.envelopeChannels :=
    ChipState.envelopeChannels_congr c.envelopeStep_registers
  apply ChipState.ext_fields
  case registers => exact ChipState.reg_congr ((c.envelopeStep.advance_registers 0).trans (c.advance_registers 0).symm)
  case changedMask =>
    rw [ChipState.advance_mask _ 0 hp', ChipState.advance_mask c 0 hp, hdue, if_neg (Nat.succ_ne_zero _), hchannels,
      ChipState.envelopeStep_changedMask]
    split
    · exact BitVec.or_zero
    · rw [BitVec.or_assoc, BitVec.or_self]
  case envelopeCounter =>
    rw [ChipState.advance_counter _ 0 hp', ChipState.advance_counter c 0 hp]
    exact (Nat.mod_eq_sub_mod h).symm
  case envelopePhase =>
    rw [ChipState.advance_phase _ 0 hp', ChipState.advance_phase c 0 hp, hdue, ← phaseAfter_nextPhase]
    rfl
  all_goals simp [ChipState.envelopeStep]

/-- With fuel for the counter, the loop takes every overdue step. -/
theorem ChipState.catchUp_eq {c : ChipState} {fuel : Nat} (hp : c.envelopePeriod ≠ 0) (hfuel : c.envelopeCounter ≤ fuel) :
    ChipState.catchUp fuel c = c.advance 0 := by
  induction fuel generalizing c with
  | zero => exact (ChipState.advance_zero_of_lt (c := c) (by omega)).symm
  | succ fuel ih =>
    unfold ChipState.catchUp
    split
    · rename_i hle
      have hless : c.envelopeStep.envelopeCounter ≤ fuel := by
        rw [ChipState.envelopeStep_envelopeCounter]
        omega
      rw [ih (c := c.envelopeStep) hp hless, ChipState.envelopeStep_advance_zero hp hle]
    · exact (ChipState.advance_zero_of_lt (c := c) (by omega)).symm

/-- The duration may be added to the counter first. -/
theorem ChipState.setTimer_advance_zero {c : ChipState} (hp : c.envelopePeriod ≠ 0) (us : Nat) :
    (c.setTimer (c.envelopeCounter + us) c.envelopePhase).advance 0 = c.advance us := by
  have hp' : (c.setTimer (c.envelopeCounter + us) c.envelopePhase).envelopePeriod ≠ 0 := hp
  rw [ChipState.advance, ChipState.advance, if_neg hp, if_neg hp']
  rfl

/-- The loop of rule R128 leaves what the closed form of rule R131 does. -/
theorem ChipState.advanceLoop_eq_advance {c : ChipState} (hp : c.envelopePeriod ≠ 0) (us : Nat) :
    c.advanceLoop us = c.advance us := by
  rw [ChipState.advanceLoop, if_neg hp]
  exact (ChipState.catchUp_eq (c := c.setTimer (c.envelopeCounter + us) c.envelopePhase) hp (Nat.le_refl _)).trans
    (ChipState.setTimer_advance_zero hp us)

/-- Settles O24: the meaning computes the closed form, which is the loop's; a remainder is below the period. -/
theorem advanceRunsTheCatchUpLoop : Obligations.AdvanceRunsTheCatchUpLoop := by
  unfold Obligations.AdvanceRunsTheCatchUpLoop
  intro s us h
  refine ⟨fun hp => execAdvance_stopped h hp us, fun hp => ?_⟩
  rw [ChipState.advanceLoop_eq_advance hp]
  refine ⟨execAdvance_running h hp us, ?_⟩
  rw [ChipState.advance_counter _ us hp]
  exact Nat.mod_lt _ (Nat.pos_of_ne_zero hp)

end Sys2Proof.Machine
end

section
/-!
O25: what ADVANCE leaves, in closed form (42_envelope.md rule R131).
-/

namespace Sys2Proof.Machine

/-- The phase after `k` steps, as a number. -/
theorem phaseAfter_toNat (shape : Shape) (p : Phase) (k : Nat) : (phaseAfter shape p k).toNat =
    if repeats shape = true then (p.toNat + k) % 32 else min 31 (p.toNat + k) := by
  rw [phaseAfter, BitVec.toNat_ofNat]
  split <;> omega

/-- A shape repeats exactly when CONT = 1 and HOLD = 0, so from 8 up and even. -/
theorem repeats_iff_toNat (shape : Shape) : repeats shape = true ↔ 8 ≤ shape.toNat ∧ shape.toNat % 2 = 0 := by
  revert shape
  decide

theorem ChipState.shape_toNat (c : ChipState) : c.shape.toNat = (c.reg 13).toNat % 16 := by
  rw [ChipState.shape, BitVec.toNat_setWidth]

/-- The channels pending after ADVANCE: those before it, and the envelope-mode channels if a step was due. -/
theorem ChipState.advance_pending {c : ChipState} (hp : c.envelopePeriod ≠ 0) (us : Nat) (j : Fin 6) :
    (c.advance us).changedMask.getLsbD j.val =
      (c.changedMask.getLsbD j.val || (decide (1 ≤ c.stepsDue us) && c.usesEnvelope (soundsOn j))) := by
  rw [ChipState.advance_mask c us hp, BitVec.getLsbD_or, ← ChipState.envelopeChannels_getLsbD]
  split
  · rename_i hdue
    simp [hdue]
  · rename_i hdue
    simp [Nat.one_le_iff_ne_zero.mpr hdue]

/-- ADVANCE writes the timer and the mask, and nothing else. -/
theorem ChipState.advance_eq {c : ChipState} (hp : c.envelopePeriod ≠ 0) (us : Nat) :
    c.advance us = { c with
      envelopeCounter := (c.envelopeCounter + us) % c.envelopePeriod
      envelopePhase := phaseAfter c.shape c.envelopePhase (c.stepsDue us)
      changedMask := (c.advance us).changedMask } := by
  rw [ChipState.advance, if_neg hp]
  rfl

/-- Settles O25: each clause is the lemma about that field of `ChipState.advance`, with the flush by the mode. -/
theorem advanceLeavesTheClosedForm : Obligations.AdvanceLeavesTheClosedForm := by
  unfold Obligations.AdvanceLeavesTheClosedForm
  intro s us h hp k shape marked
  have hphase : (phaseAfter s.chip.shape s.chip.envelopePhase k).toNat = if 8 ≤ shape ∧ shape % 2 = 0
      then (s.chip.envelopePhase.toNat + k) % 32 else min 31 (s.chip.envelopePhase.toNat + k) := by
    have hshape : s.chip.shape.toNat = shape := s.chip.shape_toNat
    rw [phaseAfter_toNat, ← hshape]
    exact if_congr (repeats_iff_toNat _) rfl rfl
  have hmarked : ∀ j : Fin 6, (s.chip.advance us).changedMask.getLsbD j.val = marked j :=
    ChipState.advance_pending hp us
  have hexec := execAdvance_running h hp us
  cases hm : s.chip.syncMode with
  | sync =>
    have hsync : (s.chip.advance us).syncMode = .sync := (s.chip.advance_syncMode us).trans hm
    rw [State.flushIfAsync_sync (s := s.withChip (s.chip.advance us)) hsync, ChipState.advance_eq hp] at hexec
    exact ⟨_, (s.chip.advance us).changedMask, hphase, fun _ => ⟨hexec, hmarked⟩, nofun⟩
  | async =>
    have hasync : (s.chip.advance us).syncMode = .async := (s.chip.advance_syncMode us).trans hm
    rw [State.flushIfAsync_async (s := s.withChip (s.chip.advance us)) h.2 hasync, State.withChip_chip,
      ChipState.pendingRecords_eq, List.filter_congr fun j _ => hmarked j, ChipState.advance_eq hp] at hexec
    exact ⟨_, 0, hphase, nofun, fun _ => ⟨hexec, rfl⟩⟩

end Sys2Proof.Machine
end

section
/-!
O26 and O27: a one-shot shape decays and then holds (42_envelope.md rules R124, R130 and R133).
-/

namespace Sys2Proof.Machine

/-- A straight line that completes has completed its first operation. -/
theorem execAll_cons_inv {i : Instr} {rest : List Instr} {s t : State} (h : execAll (i :: rest) s = .next t) :
    ∃ s', exec i s = .next s' ∧ execAll rest s' = .next t := by
  unfold execAll at h
  split at h
  · exact ⟨_, ‹_›, h⟩
  all_goals cases h

/-- Operations one after another: the second part runs from the state the first leaves. -/
theorem execAll_append_next {xs : List Instr} {s t : State} (h : execAll xs s = .next t) (ys : List Instr) :
    execAll (xs ++ ys) s = execAll ys t := by
  induction xs generalizing s with
  | nil =>
    cases h
    rfl
  | cons i xs ih =>
    obtain ⟨s', hi, hrest⟩ := execAll_cons_inv h
    rw [List.cons_append, execAll_cons_next hi, ih hrest]

/-! #### The shapes 0 to 3 -/

theorem not_repeats_of_lt_4 {shape : Shape} (h : shape.toNat < 4) : ¬ repeats shape = true := by
  rw [repeats_iff_toNat]
  omega

/-- CONT = 0 and ATT = 0: one fall from 15, then 0. -/
theorem envTable_of_lt_4 {shape : Shape} (h : shape.toNat < 4) (p : Phase) : (envTable shape p).toNat = 15 - p.toNat := by
  have hbits : attBit shape = false ∧ contBit shape = false := by
    revert shape
    decide
  have hlow : (p.setWidth 4).toNat = p.toNat % 16 := BitVec.toNat_setWidth 4 p
  have hp := p.isLt
  unfold envTable
  dsimp only
  rw [hbits.1, hbits.2, if_neg Bool.false_ne_true, if_pos rfl]
  split
  · rw [BitVec.toNat_sub, hlow]
    change (2 ^ 4 - p.toNat % 16 + 15) % 2 ^ 4 = _
    omega
  · change 0 = _
    omega

/-! #### One period at a time -/

/-- `t` is `n` periods after the start of a one-shot decay of period `period`. -/
structure Decayed (period n : Nat) (t : State) : Prop where
  ready : t.Ready
  period : t.chip.envelopePeriod = period
  counter : t.chip.envelopeCounter = 0
  phase : t.chip.envelopePhase.toNat = min 31 n
  shape : t.chip.shape.toNat < 4

/-- A write of shape 0-3 to R13 starts the decay. -/
theorem decayed_of_write {s : State} (h : s.Ready) {v : Byte} (hv : v.toNat % 16 < 4) :
    ∃ t, exec (.wrdirect 13 v) s = .next t ∧ Decayed s.chip.envelopePeriod 0 t := by
  obtain ⟨t, ht⟩ := exec_completes h (.wrdirect 13 v)
  have hdone := exec_next_completed ht
  have hchip : s.chip.updatedBy (.wrdirect 13 v) = (s.chip.setLatch 13).regWrite 13 v :=
    ChipState.updatedBy_wrdirect_accepted _ (by decide) v
  refine ⟨t, ht, hdone.ready, ?_, ?_, ?_, ?_⟩
  · rw [hdone.envelopePeriod, hchip, ChipState.regWrite_period, if_neg (by decide)]
    rfl
  · rw [hdone.envelopeCounter, hchip, ChipState.regWrite_counter, if_pos rfl]
  · rw [hdone.envelopePhase, hchip, ChipState.regWrite_phase, if_pos rfl]
    rfl
  · rw [ChipState.shape_toNat, hdone.reg, hchip, ChipState.regWrite_reg, if_pos rfl]
    exact hv

/-- A period more is exactly one step. -/
theorem Decayed.advance {period n : Nat} {t : State} (ht : Decayed period n t) (hp : period ≠ 0) :
    ∃ u, exec (.advance period) t = .next u ∧ Decayed period (n + 1) u := by
  obtain ⟨u, hu⟩ := exec_completes ht.ready (.advance period)
  have hdone := exec_next_completed hu
  have hp' : t.chip.envelopePeriod ≠ 0 := ht.period.symm ▸ hp
  have hone : t.chip.stepsDue period = 1 := by
    rw [ChipState.stepsDue, ht.counter, ht.period, Nat.zero_add, Nat.div_self (Nat.pos_of_ne_zero hp)]
  refine ⟨u, hu, hdone.ready, ?_, ?_, ?_, ?_⟩
  · rw [hdone.envelopePeriod]
    exact (t.chip.advance_envelopePeriod period).trans ht.period
  · rw [hdone.envelopeCounter]
    refine (t.chip.advance_counter period hp').trans ?_
    rw [ht.counter, ht.period, Nat.zero_add, Nat.mod_self]
  · rw [hdone.envelopePhase]
    refine (congrArg BitVec.toNat (t.chip.advance_phase period hp')).trans ?_
    rw [hone, phaseAfter_toNat, if_neg (not_repeats_of_lt_4 ht.shape), ht.phase]
    omega
  · rw [ChipState.shape_congr (hdone.registers.trans (t.chip.advance_registers period))]
    exact ht.shape

theorem Decayed.advances {period n : Nat} {t : State} (ht : Decayed period n t) (hp : period ≠ 0) (m : Nat) :
    ∃ u, execAll (List.replicate m (.advance period)) t = .next u ∧ Decayed period (n + m) u := by
  induction m generalizing n t with
  | zero => exact ⟨t, rfl, ht⟩
  | succ m ih =>
    obtain ⟨t', ht', hdecayed⟩ := ht.advance hp
    obtain ⟨u, hu, hend⟩ := ih hdecayed
    exact ⟨u, (execAll_cons_next ht' _).trans hu, by rwa [Nat.add_assoc, Nat.add_comm 1 m] at hend⟩

/-- Settles O26: the write starts the decay, each ADVANCE is one step of it, and the shape's level falls with the phase. -/
theorem oneShotDecayReachesItsEnd : Obligations.OneShotDecayReachesItsEnd := by
  unfold Obligations.OneShotDecayReachesItsEnd
  intro s v n h hp hv
  obtain ⟨t, ht, hstart⟩ := decayed_of_write h hv
  obtain ⟨u, hu, hend⟩ := hstart.advances hp n
  have hphase : u.chip.envelopePhase.toNat = min 31 n := by rw [hend.phase, Nat.zero_add]
  refine ⟨u, (execAll_cons_next ht _).trans hu, hphase, ?_⟩
  rw [ChipState.envLevel, envTable_of_lt_4 hend.shape, hphase]
  omega

/-! #### The hold -/

/-- Phase 31 of a shape that does not repeat is the last. -/
theorem phaseAfter_held {shape : Shape} (h : ¬ repeats shape = true) (k : Nat) : phaseAfter shape 31 k = 31 := by
  apply BitVec.eq_of_toNat_eq
  rw [phaseAfter_toNat, if_neg h]
  exact Nat.min_eq_left (Nat.le_add_right 31 k)

theorem ChipState.advance_held {c : ChipState} (h31 : c.envelopePhase = 31) (h : ¬ repeats c.shape = true) (us : Nat) :
    (c.advance us).envelopePhase = 31 := by
  obtain hp | hp := eq_or_ne c.envelopePeriod 0
  · rw [ChipState.advance_stopped c us hp, h31]
  · rw [ChipState.advance_phase c us hp, h31, phaseAfter_held h]

/-- Settles O27: ADVANCE leaves the registers, and the phase is held; a level is of these alone. -/
theorem heldEnvelopeKeepsItsLevels : Obligations.HeldEnvelopeKeepsItsLevels := by
  unfold Obligations.HeldEnvelopeKeepsItsLevels
  intro s us h h31 hshape
  have hholds : ¬ repeats s.chip.shape = true := by
    rw [repeats_iff]
    rintro ⟨hcont, hhold⟩
    have hcont' : (s.chip.reg 13).getLsbD 3 = true := by simpa [ChipState.shape] using hcont
    have hhold' : (s.chip.reg 13).getLsbD 0 = false := by simpa [ChipState.shape] using hhold
    rw [hcont', hhold'] at hshape
    obtain hno | hno := hshape <;> cases hno
  obtain ⟨t, ht⟩ := exec_completes h (.advance us)
  have hdone := exec_next_completed ht
  have hphase : t.chip.envelopePhase = 31 := hdone.envelopePhase.trans (ChipState.advance_held h31 hholds us)
  exact ⟨t, ht, hphase, ChipState.level_congr (hdone.registers.trans (s.chip.advance_registers us)) (hphase.trans h31.symm)⟩

end Sys2Proof.Machine
end

section
/-!
SUPPORT. The four kinds of update: RESET, ADVANCE, a register write through the latch or directly, and the operations that
move latch and mode at most.
-/

namespace Sys2Proof.Machine

/-- `i` writes `v` to register `j` of the chip, through the latch or directly. -/
def ChipState.WrittenBy (c : ChipState) (i : Instr) (j : RegIndex) (v : Byte) : Prop :=
  (i = .wrdata v ∧ c.latch = j) ∨ ∃ r, i = .wrdirect r v ∧ r.toNat = j.toNat

theorem ChipState.updatedBy_cases (c : ChipState) (i : Instr) :
    (∃ clockHz first, i = .reset clockHz first) ∨ (∃ us, i = .advance us) ∨
    (∃ j v, c.WrittenBy i j v ∧ c.updatedBy i = (c.setLatch j).regWrite j v) ∨
    (∃ latch mode, c.updatedBy i = (c.setLatch latch).setMode mode) := by
  cases i with
  | reset clockHz first => exact .inl ⟨clockHz, first, rfl⟩
  | advance us => exact .inr (.inl ⟨us, rfl⟩)
  | wrdata v => exact .inr (.inr (.inl ⟨c.latch, v, .inl ⟨rfl, rfl⟩, rfl⟩))
  | wrdirect r v =>
    obtain hr | hr := Nat.lt_or_ge 15 r.toNat
    · exact .inr (.inr (.inr ⟨c.latch, c.syncMode, c.updatedBy_wrdirect_rejected hr v⟩))
    · have hindex : r.toNat = (narrowToLatch r).toNat := by
        rw [narrowToLatch_toNat]
        omega
      exact .inr (.inr (.inl ⟨_, v, .inr ⟨r, rfl, hindex⟩, c.updatedBy_wrdirect_accepted hr v⟩))
  | wrctrl v => exact .inr (.inr (.inr ⟨narrowToLatch v, c.syncMode, rfl⟩))
  | setsyncAsync => exact .inr (.inr (.inr ⟨c.latch, .async, rfl⟩))
  | setsyncSync => exact .inr (.inr (.inr ⟨c.latch, .sync, rfl⟩))
  | rddata | setsyncFlush => exact .inr (.inr (.inr ⟨c.latch, c.syncMode, rfl⟩))

/-- No operation but RESET moves the chip to other mixer channels. -/
theorem ChipState.updatedBy_firstChannel (c : ChipState) {i : Instr} (hi : i.mnemonic ≠ "RESET") :
    (c.updatedBy i).firstChannel = c.firstChannel := by
  obtain ⟨_, _, rfl⟩ | ⟨us, rfl⟩ | ⟨j, v, -, hc⟩ | ⟨latch, mode, hc⟩ := c.updatedBy_cases i
  · exact absurd rfl hi
  · exact c.advance_firstChannel us
  · rw [hc, ChipState.regWrite_firstChannel, ChipState.setLatch_firstChannel]
  · rw [hc, ChipState.setMode_firstChannel, ChipState.setLatch_firstChannel]

/-- No operation but RESET changes the clock base. -/
theorem ChipState.updatedBy_clockBase (c : ChipState) {i : Instr} (hi : i.mnemonic ≠ "RESET") :
    (c.updatedBy i).clockBase = c.clockBase := by
  obtain ⟨_, _, rfl⟩ | ⟨us, rfl⟩ | ⟨j, v, -, hc⟩ | ⟨latch, mode, hc⟩ := c.updatedBy_cases i
  · exact absurd rfl hi
  · exact c.advance_clockBase us
  · rw [hc, ChipState.regWrite_clockBase, ChipState.setLatch_clockBase]
  · rw [hc, ChipState.setMode_clockBase, ChipState.setLatch_clockBase]

end Sys2Proof.Machine
end

section
/-!
O31 and O41: what an operation adds to the trace (43_sync_controller.md rules R151 and R152, 00_scope.md rule R10).
-/

namespace Sys2Proof.Machine

theorem eq_reset_of_mnemonic {i : Instr} (h : i.mnemonic = "RESET") : ∃ clockHz first, i = .reset clockHz first := by
  cases i with
  | reset clockHz first => exact ⟨clockHz, first, rfl⟩
  | _ => simp [Instr.mnemonic] at h

/-- The records of the updated chip are of the six mixer channels the chip had: RESET leaves none. -/
theorem ChipState.updatedBy_pendingRecords_channel (c : ChipState) (i : Instr) :
    ∀ r ∈ (c.updatedBy i).pendingRecords, c.firstChannel ≤ r.channel ∧ r.channel < c.firstChannel + 6 := by
  by_cases hi : i.mnemonic = "RESET"
  · obtain ⟨clockHz, first, rfl⟩ := eq_reset_of_mnemonic hi
    have hnone : (c.updatedBy (.reset clockHz first)).pendingRecords = [] := ChipState.pendingRecords_empty rfl
    rw [hnone]
    exact fun r hr => absurd hr List.not_mem_nil
  · rw [← c.updatedBy_firstChannel hi]
    exact ChipState.pendingRecords_channel _

/-- Settles O31: an operation adds the records of one flush, or none. -/
theorem anOperationNotifiesAChannelAtMostOnce : Obligations.AnOperationNotifiesAChannelAtMostOnce := by
  unfold Obligations.AnOperationNotifiesAChannelAtMostOnce
  intro i s t h
  obtain ⟨-, htrace⟩ | ⟨-, htrace⟩ := (exec_next_completed h).chip
  · exact ⟨[], by rw [htrace, List.append_nil], .nil, fun r hr => absurd hr List.not_mem_nil⟩
  · exact ⟨_, htrace, ChipState.pendingRecords_ascend _, s.chip.updatedBy_pendingRecords_channel i⟩

/-- An operation on a chip of a rig that completes has completed on that chip. -/
theorem Rig.exec_next {rig rig' : Rig} {j : Fin rig.chips.length} {i : Instr} (h : rig.exec j i = .next rig') :
    ∃ t, Sys2Proof.Machine.exec i rig.chips[j] = .next t ∧
      rig' = { chips := rig.chips.set j t, mixer := rig.mixer ++ newRecords rig.chips[j] t } := by
  unfold Rig.exec at h
  split at h
  · exact ⟨_, ‹_›, (Host.Outcome.next.inj h).symm⟩
  all_goals cases h

/-- Settles O41: the rig's mixer hears what the operation adds to its chip's trace (O31), and no other place of the list of
chips is set. -/
theorem chipsShareOnlyTheMixer : Obligations.ChipsShareOnlyTheMixer := by
  unfold Obligations.ChipsShareOnlyTheMixer
  intro rig rig' j i h
  obtain ⟨t, hexec, rfl⟩ := Rig.exec_next h
  obtain ⟨records, htrace, -, hchannel⟩ := anOperationNotifiesAChannelAtMostOnce i _ t hexec
  have hnew : newRecords rig.chips[j] t = records := by rw [newRecords, htrace, List.drop_left]
  exact ⟨t, records, hexec, List.getElem?_set_self j.isLt, fun l hl => List.getElem?_set_ne hl.symm, htrace,
    by rw [hnew], hchannel⟩

end Sys2Proof.Machine
end

section
/-!
O37, O38 and O39: who writes what. Each field of the chip that an operation changes is changed by `ChipState.updatedBy`
(10_state.md rules R31 to R37).
-/

namespace Sys2Proof.Machine

section Writers

variable {c : ChipState} {i : Instr}

theorem ChipState.latch_writers (h : (c.updatedBy i).latch ≠ c.latch) :
    i.mnemonic ∈ ["WRCTRL", "WRDIRECT", "RESET"] ∧ ∀ r v, i = .wrdirect r v → r.toNat ≤ 15 := by
  cases i with
  | wrctrl _ | reset _ _ => exact ⟨by simp [Instr.mnemonic], nofun⟩
  | wrdirect r v =>
    obtain hr | hr := Nat.lt_or_ge 15 r.toNat
    · exact absurd (by rw [c.updatedBy_wrdirect_rejected hr]) h
    · refine ⟨by simp [Instr.mnemonic], ?_⟩
      rintro _ _ ⟨⟩
      exact hr
  | wrdata v => exact absurd (ChipState.regWrite_latch ..) h
  | advance us => exact absurd (c.advance_latch us) h
  | rddata | setsyncAsync | setsyncSync | setsyncFlush => exact absurd rfl h

theorem ChipState.syncMode_writers (h : (c.updatedBy i).syncMode ≠ c.syncMode) :
    i.mnemonic ∈ ["SETSYNC.ASYNC", "SETSYNC.SYNC", "RESET"] := by
  cases i with
  | setsyncAsync | setsyncSync | reset _ _ => simp [Instr.mnemonic]
  | wrdirect r v =>
    obtain hr | hr := Nat.lt_or_ge 15 r.toNat
    · exact absurd (by rw [c.updatedBy_wrdirect_rejected hr]) h
    · exact absurd (by rw [c.updatedBy_wrdirect_accepted hr]; exact ChipState.regWrite_syncMode ..) h
  | wrdata v => exact absurd (ChipState.regWrite_syncMode ..) h
  | advance us => exact absurd (c.advance_syncMode us) h
  | wrctrl _ | rddata | setsyncFlush => exact absurd rfl h

end Writers

/-- Settles O37: each clause is the rule of its field, said of the chip the operation updates. -/
theorem eachControlFieldHasItsWriters : Obligations.EachControlFieldHasItsWriters := by
  unfold Obligations.EachControlFieldHasItsWriters
  intro i s t h
  have hdone := exec_next_completed h
  refine ⟨?_, ?_, ?_, fun hne => ?_, hdone.stream, hdone.idle, hdone.resetDone⟩
  · rw [hdone.latch]
    exact ChipState.latch_writers
  · rw [hdone.syncMode]
    exact ChipState.syncMode_writers
  · rw [hdone.clockBase, hdone.firstChannel]
    intro hne
    by_contra hi
    obtain hne | hne := hne
    · exact hne (s.chip.updatedBy_clockBase hi)
    · exact hne (s.chip.updatedBy_firstChannel hi)
  · by_contra hi
    exact hne (hdone.returned hi)

/-- Settles O38: ADVANCE and the operations of latch and mode leave the bank, a register write changes one register, and
RESET zeroes all. -/
theorem eachRegisterHasItsWriters : Obligations.EachRegisterHasItsWriters := by
  unfold Obligations.EachRegisterHasItsWriters
  intro i s t j h hne
  have hdone := exec_next_completed h
  rw [hdone.reg] at hne ⊢
  obtain ⟨clockHz, first, rfl⟩ | ⟨us, rfl⟩ | ⟨k, v, hwrite, hc⟩ | ⟨latch, mode, hc⟩ := s.chip.updatedBy_cases i
  · exact .inr (.inr ⟨clockHz, first, rfl, chipAfterReset_reg clockHz first j⟩)
  · exact absurd (ChipState.reg_congr (s.chip.advance_registers us) j) hne
  · rw [hc, ChipState.regWrite_reg, ChipState.setLatch_reg] at hne ⊢
    have hk : k = j := by
      by_contra hkj
      exact hne (if_neg hkj)
    subst hk
    rw [if_pos rfl]
    obtain ⟨hi, hlatch⟩ | ⟨r, hi, hr⟩ := hwrite
    · exact .inl ⟨v, hi, hlatch, rfl⟩
    · exact .inr (.inl ⟨r, v, hi, hr, rfl⟩)
  · exact absurd (by rw [hc, ChipState.setMode_reg, ChipState.setLatch_reg]) hne

/-- A written register's index, in the form of O39. -/
theorem ChipState.WrittenBy.index {c : ChipState} {i : Instr} {j : RegIndex} {v : Byte} (h : c.WrittenBy i j v) :
    (∃ v, i = .wrdata v ∧ c.latch.toNat = j.toNat) ∨ ∃ r v, i = .wrdirect r v ∧ r.toNat = j.toNat := by
  obtain ⟨hi, hlatch⟩ | ⟨r, hi, hr⟩ := h
  · exact .inl ⟨v, hi, by rw [hlatch]⟩
  · exact .inr ⟨r, v, hi, hr⟩

/-- Settles O39: a register write zeroes the timer for R13 alone and sets the period for R11 and R12 alone. -/
theorem envelopeTimerHasItsWriters : Obligations.EnvelopeTimerHasItsWriters := by
  unfold Obligations.EnvelopeTimerHasItsWriters
  intro i s t h writes zeroed
  have hdone := exec_next_completed h
  simp only [zeroed]
  rw [hdone.envelopePhase, hdone.envelopeCounter, hdone.envelopePeriod]
  obtain ⟨clockHz, first, rfl⟩ | ⟨us, rfl⟩ | ⟨j, v, hwrite, hc⟩ | ⟨latch, mode, hc⟩ := s.chip.updatedBy_cases i
  · exact ⟨fun _ => .inr (.inr ⟨rfl, rfl, rfl⟩), fun _ => .inr (.inr rfl)⟩
  · exact ⟨fun _ => .inl ⟨us, rfl⟩, fun hne => absurd (s.chip.advance_envelopePeriod us) hne⟩
  · rw [hc, ChipState.regWrite_phase, ChipState.regWrite_counter, ChipState.regWrite_period]
    constructor
    · intro hne
      by_cases hj : j = 13
      · subst hj
        exact .inr (.inl ⟨hwrite.index, rfl, rfl⟩)
      · rw [if_neg hj, if_neg hj] at hne
        obtain hne | hne := hne <;> exact absurd rfl hne
    · intro hne
      by_cases hj : j = 11 ∨ j = 12
      · obtain rfl | rfl := hj
        · exact .inl hwrite.index
        · exact .inr (.inl hwrite.index)
      · rw [if_neg hj] at hne
        exact absurd rfl hne
  · rw [hc]
    exact ⟨fun hne => hne.elim (absurd rfl) (absurd rfl), absurd rfl⟩

end Sys2Proof.Machine
end

section
/-!
O30: in Sync mode nothing is notified until a SETSYNC (43_sync_controller.md rule R158).
-/

namespace Sys2Proof.Machine

/-- From `s` to `t` the chip stayed in Sync mode, notified nothing and lost no pending channel. -/
structure Quiet (s t : State) : Prop where
  ready : t.Ready
  sync : t.chip.syncMode = .sync
  trace : t.trace = s.trace
  pending : ∀ k : Fin 6, s.chip.changedMask.getLsbD k.val = true → t.chip.changedMask.getLsbD k.val = true

theorem Quiet.trans {s t u : State} (hst : Quiet s t) (htu : Quiet t u) : Quiet s u :=
  ⟨htu.ready, htu.sync, htu.trace.trans hst.trace, fun k hk => htu.pending k (hst.pending k hk)⟩

section Quiet

variable {s : State} (h : s.Ready)
include h

theorem Quiet.of_same_mask {c : ChipState} (hm : c.syncMode = .sync) (hmask : c.changedMask = s.chip.changedMask) :
    Quiet s (s.withChip c) :=
  ⟨h, hm, rfl, fun k hk => by rwa [State.withChip_chip, hmask]⟩

/-- An update that only adds marks is quiet in Sync mode, for no flush follows it. -/
theorem Quiet.of_marks {c : ChipState} {marks : ChannelSet} (hm : c.syncMode = .sync)
    (hmask : c.changedMask = s.chip.changedMask ||| marks) : Quiet s (s.withChip c).flushIfAsync := by
  rw [State.flushIfAsync_sync (s := s.withChip c) hm]
  refine ⟨h, hm, rfl, fun k hk => ?_⟩
  rw [State.withChip_chip, hmask, BitVec.getLsbD_or, hk, Bool.true_or]

/-- Each of the five operations is quiet in Sync mode. -/
theorem exec_quiet (hm : s.chip.syncMode = .sync) {i : Instr}
    (hi : i.mnemonic ∈ ["WRCTRL", "WRDATA", "WRDIRECT", "RDDATA", "ADVANCE"]) :
    ∃ t, exec i s = .next t ∧ Quiet s t := by
  cases i with
  | wrctrl v => exact ⟨_, execWrctrl_ready h v, .of_same_mask h hm rfl⟩
  | wrdata v =>
    exact ⟨_, execWrdata_ready h v, .of_marks h ((ChipState.regWrite_syncMode ..).trans hm) (ChipState.regWrite_mask ..)⟩
  | rddata => exact ⟨_, execRddata_ready h, h, hm, rfl, fun _ hk => hk⟩
  | wrdirect r v =>
    obtain hr | hr := Nat.lt_or_ge 15 r.toNat
    · exact ⟨_, execWrdirect_rejected h hr v, h, hm, rfl, fun _ hk => hk⟩
    · exact ⟨_, execWrdirect_accepted h hr v,
        .of_marks h ((ChipState.regWrite_syncMode ..).trans hm) (ChipState.regWrite_mask ..)⟩
  | advance us =>
    obtain hp | hp := eq_or_ne s.chip.envelopePeriod 0
    · exact ⟨_, execAdvance_stopped h hp us, h, hm, rfl, fun _ hk => hk⟩
    · exact ⟨_, execAdvance_running h hp us,
        .of_marks h ((s.chip.advance_syncMode us).trans hm) (s.chip.advance_mask us hp)⟩
  | setsyncAsync | setsyncSync | setsyncFlush | reset _ _ => simp [Instr.mnemonic] at hi

end Quiet

/-- So is any sequence of them. -/
theorem execAll_quiet {ops : List Instr} {s : State} (h : s.Ready) (hm : s.chip.syncMode = .sync)
    (hops : ∀ i ∈ ops, i.mnemonic ∈ ["WRCTRL", "WRDATA", "WRDIRECT", "RDDATA", "ADVANCE"]) :
    ∃ t, execAll ops s = .next t ∧ Quiet s t := by
  induction ops generalizing s with
  | nil => exact ⟨s, rfl, h, hm, rfl, fun _ hk => hk⟩
  | cons i ops ih =>
    obtain ⟨hi, hrest⟩ := List.forall_mem_cons.mp hops
    obtain ⟨s', hexec, hquiet⟩ := exec_quiet h hm hi
    obtain ⟨t, ht, hquiet'⟩ := ih hquiet.ready hquiet.sync hrest
    exact ⟨t, (execAll_cons_next hexec ops).trans ht, hquiet.trans hquiet'⟩

/-- Every SETSYNC notifies the pending channels with the values of that moment, and empties the mask. -/
theorem exec_setsync_flushes {s : State} (h : s.Ready) {i : Instr}
    (hi : i ∈ [Instr.setsyncAsync, .setsyncSync, .setsyncFlush]) :
    ∃ u, exec i s = .next u ∧ u.chip.changedMask = 0 ∧ u.trace = s.trace ++ s.chip.pendingRecords := by
  simp only [List.mem_cons, List.not_mem_nil, or_false] at hi
  obtain rfl | rfl | rfl := hi
  · refine ⟨_, execSetsyncAsync_ready h, ?_⟩
    rw [State.setModeAndFlush_eq h.2]
    exact ⟨rfl, rfl⟩
  · refine ⟨_, execSetsyncSync_ready h, ?_⟩
    rw [State.setModeAndFlush_eq h.2]
    exact ⟨rfl, rfl⟩
  · exact ⟨_, exec_setsyncFlush_ready h, rfl, rfl⟩

/-- Settles O30: the sequence is quiet, and the SETSYNC after it is one flush of the state it leaves. -/
theorem syncModeIsSilentUntilASetsync : Obligations.SyncModeIsSilentUntilASetsync := by
  unfold Obligations.SyncModeIsSilentUntilASetsync
  intro ops s h hm hops
  obtain ⟨t, ht, hquiet⟩ := execAll_quiet h hm hops
  refine ⟨t, ht, hquiet.trace, hquiet.sync, hquiet.pending, fun i hi => ?_⟩
  obtain ⟨u, hu, hmask, htrace⟩ := exec_setsync_flushes hquiet.ready hi
  refine ⟨u, ?_, hmask, ?_⟩
  · rw [execAll_append_next ht, execAll_cons_next hu]
    rfl
  · rw [htrace, hquiet.trace, ChipState.pendingRecords_eq]

end Sys2Proof.Machine
end
